-- ==== Sys2Proof/Config.lean ====
section
/-! DEFINITION. The sizes, limits and defaults that the manual fixes for the part, every number the manual's own, and the two
values it leaves open (the one open matter of order is the State field `order`, log entry 1). -/

namespace Sys2Proof.Config

/-- Bytes of one intake channel's buffer (1.1). -/
abbrev bufferSize : Nat := 16384
/-- Most payload bytes of one link frame (1.2). -/
abbrev maxPayload : Nat := 256
/-- Least and most length of a record (R6). -/
abbrev minRecord : Nat := 8
abbrev maxRecord : Nat := 4096
/-- Range and default of a ready watermark (R2). -/
abbrev watermarkMin : Nat := 512
abbrev watermarkMax : Nat := 12288
abbrev watermarkDefault : Nat := 4608
/-- Range and default of the stall limit, in ms (R16). -/
abbrev stallMin : Nat := 100
abbrev stallMax : Nat := 600000
abbrev stallDefault : Nat := 30000
/-- Range and default of the global target, and of a job's nonzero target (R22, R66). -/
abbrev targetMin : Nat := 32
abbrev targetMax : Nat := 224
abbrev targetDefault : Nat := 128
/-- Range and default of the lead (R142). -/
abbrev leadMin : Nat := 1
abbrev leadMax : Nat := 64
abbrev leadDefault : Nat := 8
/-- Greatest interval and the default of the ROSTER and PORTRAIT classes, in units of 100 µs (R165). -/
abbrev intervalMax : Nat := 65535
abbrev intervalDefault : Nat := 1000
/-- Default of the store low mark, and what the recovery level adds to it (R55). -/
abbrev lowMarkDefault : Nat := 8192
abbrev recoveryStep : Nat := 1024
/-- A counter of 32 bits saturates here (R18, R147). -/
abbrev counterMax : Nat := 4294967295
/-- Slots of the job table (2.1) and entries of the subject directory (2.3). -/
abbrev jobSlots : Nat := 8
abbrev directorySize : Nat := 1024
/-- Characters kept of a name (R31) and of a title (R92). -/
abbrev nameLength : Nat := 40
abbrev titleLength : Nat := 64
/-- Range of a portrait's source size (R44). -/
abbrev sourceMin : Nat := 16
abbrev sourceWidthMax : Nat := 1024
abbrev sourceHeightMax : Nat := 1280
/-- Range of a gain, in 1,024ths (R42, R68). -/
abbrev gainMin : Nat := 512
abbrev gainMax : Nat := 2048
/-- Bytes of a block, blocks of the pool and bytes of a band buffer; the block area begins after the band area (3.1). -/
abbrev blockSize : Nat := 4096
abbrev blockCount : Nat := 229376
abbrev bandBufferSize : Nat := 1048576
abbrev bandBufferCount : Nat := 128
abbrev blockArea : Nat := 134217728
/-- Bytes of the frame store, 1 GiB (3.1). -/
abbrev storeSize : Nat := 1073741824
/-- Most slots of a template and greatest cell number (5.1). -/
abbrev slotMax : Nat := 192
abbrev cellMax : Nat := 79
/-- Page size limits and the band height taken for an unlisted one (R75). -/
abbrev pageSizeMin : Nat := 600
abbrev pageWidthMax : Nat := 4800
abbrev pageHeightMax : Nat := 7200
abbrev bandHeightDefault : Nat := 64
/-- Page records of the page queue (6), and the hold time that never expires (R92). -/
abbrev pageSlots : Nat := 16
abbrev holdForever : Nat := 65535
/-- Greatest max attempts (R92). -/
abbrev attemptsMax : Nat := 3
/-- Least step of the scaler, in 1/65,536ths of a source pixel: twice the source size (R124). -/
abbrev stepMin : Nat := 32768
/-- Buffers one page keeps in SENT records (R140). -/
abbrev retentionLimit : Nat := 64
/-- Pages in path (R150) and ids of the purge list (R147). -/
abbrev pathMax : Nat := 4
abbrev purgeMax : Nat := 8
/-- Entries of the return queue, and those that notices may use (R164). -/
abbrev returnEntries : Nat := 64
abbrev noticeEntries : Nat := 56
/-- Units of 100 µs in one millisecond: the model's clock counts units of 100 µs (log entry 2). -/
abbrev unitsPerMs : Nat := 10

/-- What the two bytes of a packed item hold for a value of more than 16 bits: 11.4 gives the item two bytes and does not say
(a free value, log entry 32). -/
opaque wideItem : Nat → BitVec 16

/-- What bits 0 to 6 of the first byte of a RETURN frame hold, by the frame's payload: R181 says only that bit 7 is clear (a free
value, log entry 33). -/
opaque returnFrameBits : List (BitVec 8) → BitVec 7

end Sys2Proof.Config
end

