-- ==== Sys2Proof/Word.lean ====
section
/-! DEFINITION. The plainest values of the part: a byte and a colour (R179: a pixel is its R, G and B bytes). -/

namespace Sys2Proof

/-- One byte of either link, of a record or of the frame store. -/
abbrev Byte := BitVec 8

/-- A colour or a pixel: its red, green and blue values, one byte each, in that order (R179). -/
structure Rgb where
  r : Byte
  g : Byte
  b : Byte
  deriving DecidableEq, Repr

end Sys2Proof
end

