-- ==== Sys2Proof/Syntax.lean ====
section
/-! DEFINITION. The commands of the part: one constructor for each row of spec/opcode_table.json. A record command
stands for the arrival of that whole record on its channel (log entry 3); the other commands are frames, press messages,
the part's own ends and expiries, and the reset input. -/

namespace Sys2Proof

/-- The eight classes of return records (R165). -/
inductive NoticeClass where
  | channel | roster | portrait | page | sheet | store | table | reply
  deriving DecidableEq, Repr

/-- One of the four intake channels. -/
abbrev Chan := Fin 4

/-- The fields of one slot as a TEMPLATE record carries them (11.3, slot entry). -/
structure SlotFields where
  kind : Nat
  cell : Nat
  paired : Nat
  font : Nat
  align : Nat
  colour : Rgb
  x : Nat
  y : Nat
  w : Nat
  h : Nat
  deriving DecidableEq, Repr

/-- A command to the part. -/
inductive Instr where
  /-- LINK_FRAME: a forward link frame with its channel, SYNC flag and payload (R1). -/
  | linkFrame (ch : Chan) (sync : Bool) (payload : List Byte)
  /-- MASTER_RESET: the reset input goes low (R21, 11.7). -/
  | masterReset
  /-- UNKNOWN_KIND: a record whose kind code is none of the seventeen (R8). -/
  | unknownKind (ch : Chan) (kind tag : Nat) (body : List Byte)
  /-- JOB_OPEN (R22). -/
  | jobOpen (ch : Chan) (tag jobId target base limit : Nat)
  /-- JOB_CLOSE (R25). -/
  | jobClose (ch : Chan) (tag jobId : Nat)
  /-- ROSTER (R30). -/
  | roster (ch : Chan) (tag key publication : Nat) (name : List Byte)
  /-- PORTRAIT_HEAD (R44). -/
  | portraitHead (ch : Chan) (tag key version width height faceX faceY faceW faceH fixedGain : Nat)
  /-- PORTRAIT_STRIP (R48). -/
  | portraitStrip (ch : Chan) (tag key index lines : Nat) (pixels : List Byte)
  /-- PORTRAIT_END (R50). -/
  | portraitEnd (ch : Chan) (tag key total : Nat)
  /-- TEMPLATE (R74). -/
  | template (ch : Chan) (tag number width height bandHeight : Nat) (background placeholder ink : Rgb)
      (slots : List SlotFields)
  /-- FONT (R85). -/
  | font (ch : Chan) (tag number height tracking blank : Nat)
  /-- GLYPH (R86). -/
  | glyph (ch : Chan) (tag number code advance : Nat) (bitmap : List Byte)
  /-- PAGE (R91). -/
  | page (ch : Chan) (tag pageId hold jobId number attempts : Nat) (title : List Byte) (keys : List Nat)
  /-- PAGE_CANCEL (R104). -/
  | pageCancel (ch : Chan) (tag pageId : Nat)
  /-- SET_READY_WATERMARK: a SET of one pair, the watermark of channel `target` (R2). -/
  | setReadyWatermark (ch : Chan) (tag : Nat) (target : Chan) (value : Nat)
  /-- SET_STALL_LIMIT (R16). -/
  | setStallLimit (ch : Chan) (tag value : Nat)
  /-- SET_GLOBAL_TARGET (R66). -/
  | setGlobalTarget (ch : Chan) (tag value : Nat)
  /-- SET_LEAD (R142). -/
  | setLead (ch : Chan) (tag value : Nat)
  /-- SET_INTERVAL: a SET of one pair, the interval of one notice class (R167). -/
  | setInterval (ch : Chan) (tag : Nat) (cls : NoticeClass) (value : Nat)
  /-- SET_STORE_LOW_MARK (R56). -/
  | setStoreLowMark (ch : Chan) (tag value : Nat)
  /-- QUERY_STATUS (R173). -/
  | queryStatus (ch : Chan) (tag : Nat)
  /-- QUERY_CHANNEL (R172). -/
  | queryChannel (ch : Chan) (tag channel : Nat)
  /-- QUERY_ENTRY (R172). -/
  | queryEntry (ch : Chan) (tag key : Nat)
  /-- QUERY_PAGE (R172). -/
  | queryPage (ch : Chan) (tag pageId : Nat)
  /-- QUERY_JOB (R172). -/
  | queryJob (ch : Chan) (tag jobId : Nat)
  /-- QUERY_TEMPLATE (R172). -/
  | queryTemplate (ch : Chan) (tag number : Nat)
  /-- FLAGS_CLEAR_OVERFLOW: a FLAGS CLEAR whose selection names the overflow flag of channel `target` (R174). -/
  | flagsClearOverflow (ch : Chan) (tag : Nat) (target : Chan)
  /-- FLAGS_CLEAR_FRAMING (R174). -/
  | flagsClearFraming (ch : Chan) (tag : Nat) (target : Chan)
  /-- FLAGS_CLEAR_STORE_LOW_SEEN (R174). -/
  | flagsClearStoreLowSeen (ch : Chan) (tag : Nat)
  /-- NOTICE_FLUSH (R170). -/
  | noticeFlush (ch : Chan) (tag : Nat)
  /-- CHANNEL_RESET naming channel `target` (R12). -/
  | channelReset (ch : Chan) (tag target : Nat)
  /-- CLEAR (R20). -/
  | clear (ch : Chan) (tag : Nat)
  /-- START from the press (R152). -/
  | start (pageId : Nat)
  /-- DEMAND from the press (R153). -/
  | demand
  /-- DONE from the press (R157). -/
  | done (pageId : Nat)
  /-- FAULT from the press (R158). -/
  | fault (pageId : Nat)
  /-- RESTART from the press (R160). -/
  | restart
  /-- BAD_MESSAGE: a press message whose type byte is none of the five (R149). -/
  | badMessage (type pageId : Nat)
  /-- BAND_COMPOSITION_COMPLETE: the compositor completes its band (R119). -/
  | bandCompositionComplete
  /-- BAND_SENDING_END: the last byte of the band message leaves the head port (R154). -/
  | bandSendingEnd
  /-- RETURN_TRANSFER_END: the last byte of the return record leaves the part (R168). -/
  | returnTransferEnd
  /-- STALL_LIMIT_EXPIRY of the waiting entry of channel `ch` (R16). -/
  | stallLimitExpiry (ch : Chan)
  /-- HOLD_EXPIRY of the page in GATHERING (R96). -/
  | holdExpiry
  /-- GATE_EXPIRY of one notice class (R167). -/
  | gateExpiry (cls : NoticeClass)
  /-- RESET_INPUT_HIGH: the reset input returns high (R21, 11.7). -/
  | resetInputHigh
  deriving DecidableEq, Repr

end Sys2Proof
end

