-- ==== Sys2Proof/Machine/State.lean ====
section
/-! DEFINITION. Everything the part holds, as plain data, and its values after a master reset. Numbers the manual counts
with are Nat; only bytes are bit vectors. Views that follow from stored items (a channel's free space, an entry's photo
state, the font lock, the pending set, a number's mapped buffer) are computed in Machine/Flags.lean and not stored. -/

namespace Sys2Proof.Machine

/-! ## Intake channels and the waiting list (1.1, 1.7) -/

/-- Channel state (1.1). -/
inductive ChanMode where
  | active | resync
  deriving DecidableEq, Repr

/-- Portrait binding (1.5): NONE, OPEN with a key and the expected strip index (R47), or SKIP with a key. -/
inductive Binding where
  | unbound
  | opened (key expected : Nat)
  | skipping (key : Nat)
  deriving DecidableEq, Repr

/-- One intake channel (1.1). Its front record is the front of `buffer`; its stall is its entry in `State.waiting`. -/
structure Channel where
  buffer : List Byte
  mode : ChanMode
  watermark : Nat
  /-- The ready indication as last sent (R2). -/
  ready : Bool
  binding : Binding
  /-- The five counters of R18. -/
  taken : Nat
  refused : Nat
  discarded : Nat
  dropped : Nat
  stalls : Nat
  /-- The two sticky flags of R19. -/
  overflow : Bool
  framing : Bool
  resetTag : Nat
  deriving DecidableEq, Repr

/-- The resource kinds of R14. -/
inductive Resource where
  | jobSlot | entry | incomingRole (key : Nat) | retiringRole (key : Nat) | blocks | templateBuffer | pageSlot
  | fontLock | returnSpace
  deriving DecidableEq, Repr

/-- An entry of the waiting list (1.7); the waiting record is the front of the channel's buffer. -/
structure WaitEntry where
  ch : Chan
  kind : Resource
  start : Nat
  deriving DecidableEq, Repr

/-! ## Jobs, entries and versions (2.1, 2.3, 2.4) -/

/-- OPEN, or CLOSING with its close tag (2.1). -/
inductive JobState where
  | opened
  | closing (tag : Nat)
  deriving DecidableEq, Repr

/-- A live job (2.1). -/
structure Job where
  id : Nat
  base : Nat
  limit : Nat
  target : Nat
  state : JobState
  livePages : Nat
  deriving DecidableEq, Repr

/-- A rectangle: left column, top line, width, height. -/
structure Rect where
  x : Nat
  y : Nat
  w : Nat
  h : Nat
  deriving DecidableEq, Repr

/-- `count` block numbers from `first` on, ascending. Block lists are held as runs; the list they stand for is their
concatenation (log entry 4). -/
structure Run where
  first : Nat
  count : Nat
  deriving DecidableEq, Repr

/-- Filling with the clipped face window (R61), or complete with the mean, the gain and the END's tag (R51, R67). -/
inductive VersionState where
  | filling (window : Rect)
  | complete (mean gain endTag : Nat)
  deriving DecidableEq, Repr

/-- A version record (2.4). `fixedGain` is present when the fixed-gain flag is set (R42). -/
structure Version where
  number : Nat
  width : Nat
  height : Nat
  blocks : List Run
  lines : Nat
  sum : Nat
  count : Nat
  fixedGain : Option Nat
  state : VersionState
  pins : Nat
  deriving DecidableEq, Repr

/-- A directory entry (2.3). -/
structure Entry where
  key : Nat
  jobId : Nat
  name : Option (List Byte)
  withholdPhoto : Bool
  withholdName : Bool
  nameAltered : Bool
  incoming : Option Version
  current : Option Version
  retiring : Option Version
  deriving DecidableEq, Repr

/-! ## Templates and fonts (chapter 5) -/

/-- Alignment codes LEFT, CENTRE, RIGHT (11.3). -/
inductive Align where
  | left | centre | right
  deriving DecidableEq, Repr

/-- A kept slot's kind with the fields that belong to it (R76). -/
inductive SlotKind where
  | fill (colour : Rgb)
  | portrait (cell : Nat)
  | caption (paired : Nat) (font : Fin 2) (align : Align)
  | title (font : Fin 2) (align : Align)
  deriving DecidableEq, Repr

/-- A kept slot: its slot index, clipped rectangle and kind (R77, R79). -/
structure Slot where
  index : Nat
  rect : Rect
  kind : SlotKind
  deriving DecidableEq, Repr

/-- A loaded template buffer (5.4). It is SUPERSEDED when `superseded` holds the tag of the TEMPLATE that superseded it,
and MAPPED otherwise; a FREE buffer is absent. -/
structure TemplateBuffer where
  number : Nat
  tag : Nat
  superseded : Option Nat
  pins : Nat
  width : Nat
  height : Nat
  bandHeight : Nat
  background : Rgb
  placeholder : Rgb
  ink : Rgb
  /-- The slot count of the header, as the record carried it (5.1). -/
  slotCount : Nat
  sizeClamped : Bool
  bandDefaulted : Bool
  /-- The kept slots in band-index order: by top line, then by slot index (R79). -/
  bandIndex : List Slot
  deriving DecidableEq, Repr

/-- The three metrics of a loaded font (R85). -/
structure FontMetrics where
  height : Nat
  tracking : Nat
  blank : Nat
  deriving DecidableEq, Repr

/-- A stored glyph: its bitmap row by row, each row padded to whole bytes (R86). -/
structure Glyph where
  code : Nat
  advance : Nat
  bitmap : List Byte
  deriving DecidableEq, Repr

/-- A caption font (5.5): loaded exactly when it has metrics; its glyphs in ascending order of code. -/
structure Font where
  metrics : Option FontMetrics
  glyphs : List Glyph
  deriving DecidableEq, Repr

/-! ## Pages, cast lists and bands (6.1, 8.1) -/

/-- The states a page record in the queue can be in (6.3); ACCEPTED, FAILED and CANCELLED are never held. -/
inductive PageState where
  | queued | gathering | composing | offered | printing | inPath | replay
  deriving DecidableEq, Repr

/-- The hold timer (6.1). -/
inductive HoldTimer where
  | notStarted
  | running (start : Nat)
  | expired
  deriving DecidableEq, Repr

/-- The scaler parameters of a PORTRAIT cell (R124, R125). -/
structure Scaler where
  step : Nat
  dw : Nat
  dh : Nat
  mx : Nat
  my : Nat
  ox : Nat
  oy : Nat
  undersized : Bool
  deriving DecidableEq, Repr

/-- What a cell shows (R100). -/
inductive CellContent where
  | empty | missing | withheld
  | portrait (version : Nat) (scaler : Scaler)
  deriving DecidableEq, Repr

/-- A cast record (R100), with the cell's caption text. -/
structure CastRecord where
  cell : Nat
  key : Nat
  content : CellContent
  text : Option (List Byte)
  deriving DecidableEq, Repr

/-- A caption's layout (R127 to R129): the font, the characters set, the left column, the top line and the text width,
WHOLE or CLIPPED; or OMITTED. -/
inductive CaptionLayout where
  | set (clipped : Bool) (font : Fin 2) (chars x y width : Nat)
  | omitted
  deriving DecidableEq, Repr

/-- A caption record of a CAPTION or TITLE slot (R101). A record without text has no layout. -/
structure CaptionRecord where
  slot : Nat
  text : Option (List Byte)
  layout : Option CaptionLayout
  deriving DecidableEq, Repr

/-- Start cause (R99). -/
inductive StartCause where
  | ready | expired | noHold
  deriving DecidableEq, Repr

/-- What composition start captures: the cast list, the caption records, the start cause and the counts (R99 to R102). -/
structure Cast where
  cells : List CastRecord
  captions : List CaptionRecord
  cause : StartCause
  missing : Nat
  withheld : Nat
  undersized : Nat
  clipped : Nat
  omitted : Nat
  deriving DecidableEq, Repr

/-- A band record's state and mark (R134). -/
inductive BandState where
  | composing | composed | sent | sentNot
  deriving DecidableEq, Repr

/-- A band record of its page (R134). -/
structure BandRecord where
  index : Nat
  buffers : List Nat
  state : BandState
  deriving DecidableEq, Repr

/-- An entry of the send log (R147). -/
inductive SendMark where
  | unsent | real | filler
  deriving DecidableEq, Repr

/-- A page record (6.1), with the first-composition count (R112), the page's band records in ascending order of band index
(R134) and its send log, empty while there is none (R147). -/
structure Page where
  id : Nat
  jobId : Nat
  tag : Nat
  buffer : Fin 12
  maxAttempts : Nat
  hold : Nat
  title : Option (List Byte)
  /-- Each cell number of the pinned template's cell set with its key, in ascending order of cell number (R93). -/
  cells : List (Nat × Nat)
  state : PageState
  permit : Bool
  timer : HoldTimer
  cast : Option Cast
  attempt : Nat
  spoiled : Bool
  firstCount : Nat
  bands : List BandRecord
  sendLog : List SendMark
  deriving DecidableEq, Repr

/-! ## Compositor and head port (7.1, 9.1) -/

/-- A work item: page id, band index, and whether its kind is REPLAY (7.1). -/
structure WorkItem where
  page : Nat
  band : Nat
  replay : Bool
  deriving DecidableEq, Repr

/-- The compositor: FREE, WAITING or BUSY; the latter two with the work item and the buffer need (R113). -/
inductive Compositor where
  | free
  | waiting (item : WorkItem) (need : Nat)
  | busy (item : WorkItem) (need : Nat)
  deriving DecidableEq, Repr

/-- The page in the offer slot, in phase PRINTING or else OFFERED (R147). -/
structure OfferSlot where
  page : Nat
  printing : Bool
  deriving DecidableEq, Repr

/-- The band message leaving the head port: REAL or FILLER (R147). -/
structure Sending where
  page : Nat
  band : Nat
  real : Bool
  deriving DecidableEq, Repr

/-- The head port's six counters (R147). -/
structure HeadCounters where
  offered : Nat
  accepted : Nat
  faults : Nat
  restarts : Nat
  underruns : Nat
  protocol : Nat
  deriving DecidableEq, Repr

/-! ## Return records (10.1, 11.4) -/

/-- The notice codes, class by class in the order of R165. -/
inductive NoticeCode where
  | refused | stallDiscard | overflow | framing | resyncDone
  | rosterTaken | nameAltered
  | portraitReady | retakeReady | portraitFailed | versionRetired
  | pageTaken | pageComposing | pageCancelled | pageFailed | jobClosed
  | sheetOffered | sheetAccepted | sheetFaulted | underrun | engineRestart | headProtocol
  | storeLow | storeRecovered
  | templateLoaded | templateFreed | fontLoaded
  deriving DecidableEq, Repr

/-- One packed value of a detail or of a reply: two bytes, four bytes, or a string with its count (11.1, 11.4). -/
inductive Item where
  | two (n : Nat)
  | four (n : Nat)
  | text (bytes : List Byte)
  deriving DecidableEq, Repr

/-- A NOTICE (10.1). -/
structure Notice where
  code : NoticeCode
  tag : Nat
  subject : Nat
  detail : List Item
  deriving DecidableEq, Repr

/-- The reply kinds (10.1). -/
inductive ReplyKind where
  | status | channel | entry | page | job | template | set
  deriving DecidableEq, Repr

/-- One entry of a SET acknowledgement (R176). -/
structure SetAck where
  param : Nat
  carried : Nat
  applied : Nat
  clamped : Bool
  deriving DecidableEq, Repr

/-- The contents of a reply: the items of a query reply with their item codes, or the entries of a SET acknowledgement. -/
inductive ReplyContents where
  | items (list : List (Nat × List Item))
  | settings (list : List SetAck)
  deriving DecidableEq, Repr

/-- A REPLY (10.1). -/
structure Reply where
  kind : ReplyKind
  tag : Nat
  present : Bool
  operand : Nat
  contents : ReplyContents
  deriving DecidableEq, Repr

/-- A return record. -/
inductive ReturnRecord where
  | notice (n : Notice)
  | reply (r : Reply)
  deriving DecidableEq, Repr

/-- A held entry of the return queue, flushed or not (10.1). -/
structure Held where
  item : ReturnRecord
  flushed : Bool
  deriving DecidableEq, Repr

/-- A class gate: the time of the class's last release, its interval, and the class's overrun flag (10.1). -/
structure Gate where
  last : Option Nat
  interval : Nat
  overrun : Bool
  deriving DecidableEq, Repr

/-- The entry whose transfer is in progress, with its overrun mark (R168, R169). -/
structure Transfer where
  item : ReturnRecord
  mark : Bool
  deriving DecidableEq, Repr

/-! ## What leaves the part -/

/-- What the part sends during a step: READY frames (R181), return records from their first to their last frame (R181),
and messages to the press (R148). -/
inductive Output where
  | ready (r0 r1 r2 r3 resetMark : Bool)
  | returnBegin (t : Transfer)
  | returnEnd
  | offer (page bandCount bandHeight width attempt : Nat)
  | bandBegin (page band lines width : Nat) (filler last spoil : Bool) (pixels : List Byte)
  | bandEnd
  | bandAborted
  | purge (page : Nat)
  deriving DecidableEq, Repr

/-! ## The state -/

/-- The state of the part. -/
structure State where
  /-- The commands that wait, first in first out. The model's own field: the environment's input. -/
  pending : List Instr
  /-- Choices for events between which the manual gives no order (log entry 1). The model's own field: an input, read
  and used up one at a time; where it is empty the choice is 0. -/
  order : List Nat
  /-- The reference clock, in units of 100 µs (log entry 2). -/
  now : Nat
  /-- A release has happened whose examination of the waiting list has not been made yet (R14, R15). -/
  wake : Bool
  /-- What the last command made the part send. The model's own field. -/
  out : List Output
  /-- The reset input is low (11.7). -/
  inReset : Bool
  chans : Vector Channel 4
  waiting : List WaitEntry
  /-- In ms (R16). -/
  stallLimit : Nat
  /-- The live jobs, in the order they were opened; a free slot of the 8 holds none (log entry 5). -/
  jobs : List Job
  /-- The used entries, in the order they were created (log entry 5). -/
  entries : List Entry
  /-- The free block list (R40). -/
  freeBlocks : List Run
  storeLow : Bool
  lowMark : Nat
  lowSeen : Bool
  globalTarget : Nat
  /-- The frame store's bytes, band area and block area: ascending addresses, no cell 0 (log entry 6). -/
  store : List Host.Cell
  templates : Vector (Option TemplateBuffer) 12
  fonts : Vector Font 2
  /-- The page queue, oldest first. -/
  pages : List Page
  compositor : Compositor
  /-- The free band buffers, ascending (R133). -/
  freeBuffers : List Nat
  lead : Nat
  offer : Option OfferSlot
  /-- The path list, oldest first (R147). -/
  path : List Nat
  /-- The send cursor (R147). -/
  cursor : Option Nat
  sending : Option Sending
  /-- The purge list, oldest first (R147). -/
  purge : List Nat
  headCounters : HeadCounters
  /-- The return queue, oldest first (10.1). -/
  returnQueue : List Held
  gates : Vector Gate 8
  /-- The return channel: IDLE, or the transfer in progress (10.1). -/
  returnChannel : Option Transfer
  deriving DecidableEq, Repr

/-- Reasons for which the part stops. No command of this part stops it: the manual gives every command an effect in every
state, so nothing raises a fault and the type has no constructor (log entry 7). -/
inductive Fault where
  deriving DecidableEq, Repr

/-- Reasons for which the model has no answer. -/
inductive Refusal where
  /-- Raised by an arm of `exec` whose command has no meaning yet; safe, since the machine then stops. No arm of this
  model raises it. -/
  | notModelled (mnemonic : String)
  deriving DecidableEq, Repr

/-! ## Reset values -/

/-- A channel after a master reset (1.1, R21). -/
def Channel.reset : Channel where
  buffer := []
  mode := .active
  watermark := Config.watermarkDefault
  ready := true
  binding := .unbound
  taken := 0
  refused := 0
  discarded := 0
  dropped := 0
  stalls := 0
  overflow := false
  framing := false
  resetTag := 0

/-- A class gate after a master reset: no last release, the default interval, the overrun flag clear (R165, R177). -/
def Gate.reset (interval : Nat) : Gate := { last := none, interval := interval, overrun := false }

/-- The part after a master reset, its reset input high again (R21, R39, R58, R73, R80, R90, R109, R113, R144, R147,
R177). -/
def State.reset : State where
  pending := []
  order := []
  now := 0
  wake := false
  out := []
  inReset := false
  chans := Vector.replicate 4 Channel.reset
  waiting := []
  stallLimit := Config.stallDefault
  jobs := []
  entries := []
  freeBlocks := [{ first := 0, count := Config.blockCount }]
  storeLow := false
  lowMark := Config.lowMarkDefault
  lowSeen := false
  globalTarget := Config.targetDefault
  store := []
  templates := Vector.replicate 12 none
  fonts := Vector.replicate 2 { metrics := none, glyphs := [] }
  pages := []
  compositor := .free
  freeBuffers := List.range Config.bandBufferCount
  lead := Config.leadDefault
  offer := none
  path := []
  cursor := none
  sending := none
  purge := []
  headCounters := { offered := 0, accepted := 0, faults := 0, restarts := 0, underruns := 0, protocol := 0 }
  returnQueue := []
  gates := #v[Gate.reset 0, Gate.reset Config.intervalDefault, Gate.reset Config.intervalDefault, Gate.reset 0,
    Gate.reset 0, Gate.reset 0, Gate.reset 0, Gate.reset 0]
  returnChannel := none

end Sys2Proof.Machine
end

