-- ==== Sys2Proof/Machine/Operands.lean ====
section
/-! DEFINITION. The wire forms: big-endian fields, the kinds and fields of intake records, the code values of 11.2 to
11.4, and the bytes of frames, records and messages in both directions (R179 to R182). -/

namespace Sys2Proof.Machine

/-! ## Fields -/

/-- The `w` bytes of a number, most significant byte first (R179). -/
def beBytes : Nat → Nat → List Byte
  | 0, _ => []
  | w + 1, n => BitVec.ofNat 8 (n / 256 ^ w) :: beBytes w n

/-- The number that bytes spell, most significant byte first (R179). -/
def beNumber (bytes : List Byte) : Nat := bytes.foldl (fun n b => n * 256 + b.toNat) 0

/-- The field of `w` bytes at an offset of a record or message. -/
def field (bytes : List Byte) (offset w : Nat) : Nat := beNumber ((bytes.drop offset).take w)

/-- The byte at an offset, 0 beyond the end. -/
def byteAt (bytes : List Byte) (offset : Nat) : Byte := (bytes[offset]?).getD 0

/-- A colour at an offset. -/
def rgbAt (bytes : List Byte) (offset : Nat) : Rgb :=
  { r := byteAt bytes offset, g := byteAt bytes (offset + 1), b := byteAt bytes (offset + 2) }

/-- The three bytes of a colour. -/
def rgbBytes (c : Rgb) : List Byte := [c.r, c.g, c.b]

/-- Bit `n` of a number. -/
def bit (n i : Nat) : Bool := n / 2 ^ i % 2 = 1

/-- A number with one bit for each flag, the first flag in bit 0 (11.4). -/
def flagBits : List Bool → Nat
  | [] => 0
  | f :: rest => f.toNat + 2 * flagBits rest

/-! ## Record kinds -/

/-- The seventeen intake record kinds. -/
inductive RecordKind where
  | jobOpen | jobClose | roster | portraitHead | portraitStrip | portraitEnd | template | font | glyph | page | pageCancel
  | set | query | flagsClear | noticeFlush | channelReset | clear
  deriving DecidableEq, Repr

/-- The kind codes (11.2). -/
def RecordKind.code : RecordKind → Nat
  | .jobOpen => 1 | .jobClose => 2 | .roster => 3
  | .portraitHead => 16 | .portraitStrip => 17 | .portraitEnd => 18
  | .template => 32 | .font => 33 | .glyph => 34
  | .page => 48 | .pageCancel => 49
  | .set => 64 | .query => 65 | .flagsClear => 66 | .noticeFlush => 67
  | .channelReset => 80 | .clear => 81

/-- The kind of a code, none for a code that is not one of the seventeen (R8). -/
def RecordKind.ofCode : Nat → Option RecordKind
  | 1 => some .jobOpen | 2 => some .jobClose | 3 => some .roster
  | 16 => some .portraitHead | 17 => some .portraitStrip | 18 => some .portraitEnd
  | 32 => some .template | 33 => some .font | 34 => some .glyph
  | 48 => some .page | 49 => some .pageCancel
  | 64 => some .set | 65 => some .query | 66 => some .flagsClear | 67 => some .noticeFlush
  | 80 => some .channelReset | 81 => some .clear
  | _ => none

/-- The fixed part of a kind, header included (11.2). -/
def RecordKind.fixedPart : RecordKind → Nat
  | .jobOpen => 20 | .jobClose => 12 | .roster => 16
  | .portraitHead => 28 | .portraitStrip => 16 | .portraitEnd => 16
  | .template => 32 | .font => 12 | .glyph => 12
  | .page => 20 | .pageCancel => 12
  | .set => 12 | .query => 16 | .flagsClear => 12 | .noticeFlush => 8
  | .channelReset => 12 | .clear => 8

/-! ## The record header (11.2) -/

def recKindCode (b : List Byte) : Nat := field b 0 1
def recFlags (b : List Byte) : Nat := field b 1 1
def recLength (b : List Byte) : Nat := field b 2 2
def recTag (b : List Byte) : Nat := field b 4 4
def recKind (b : List Byte) : Option RecordKind := RecordKind.ofCode (recKindCode b)

/-- The key of a ROSTER or PORTRAIT record, where the record is long enough to carry it. -/
def recKey? (b : List Byte) : Option Nat := if 12 ≤ b.length then some (field b 8 4) else none

/-- The record is a PORTRAIT STRIP or PORTRAIT END that carries key `k` (R11). -/
def carriesSkipKey (b : List Byte) (k : Nat) : Bool :=
  (recKind b = some .portraitStrip || recKind b = some .portraitEnd) && recKey? b = some k

/-- The subject field of a REFUSED or STALL-DISCARD notice of the record (R166); 0 where the record is too short to carry
its identifier (log entry 8). -/
def recSubject (b : List Byte) : Nat :=
  match recKind b with
  | some .roster | some .portraitHead | some .portraitStrip | some .portraitEnd => (recKey? b).getD 0
  | some .page | some .pageCancel => if 10 ≤ b.length then field b 8 2 else 0
  | some .jobOpen | some .jobClose => if 9 ≤ b.length then field b 8 1 else 0
  | _ => 0

/-! ## Code values (11.4) -/

/-- The refusal reasons, in the order of R165. -/
inductive Reason where
  | unknownKind | outOfWindow | noJob | jobClosing | duplicateJob | windowOverlap | staleVersion | badSize | noOpenPortrait
  | duplicatePage | duplicateKey | noTemplate | badTemplate | tooLate | unknownPage | badGlyph | badField
  deriving DecidableEq, Repr

/-- UNKNOWN-KIND 1 to BAD-FIELD 17 (11.4). -/
def Reason.code : Reason → Nat
  | .unknownKind => 1 | .outOfWindow => 2 | .noJob => 3 | .jobClosing => 4 | .duplicateJob => 5 | .windowOverlap => 6
  | .staleVersion => 7 | .badSize => 8 | .noOpenPortrait => 9 | .duplicatePage => 10 | .duplicateKey => 11
  | .noTemplate => 12 | .badTemplate => 13 | .tooLate => 14 | .unknownPage => 15 | .badGlyph => 16 | .badField => 17

/-- JOB-SLOT 1 to RETURN-SPACE 9 (11.4). -/
def Resource.code : Resource → Nat
  | .jobSlot => 1 | .entry => 2 | .incomingRole _ => 3 | .retiringRole _ => 4 | .blocks => 5 | .templateBuffer => 6
  | .pageSlot => 7 | .fontLock => 8 | .returnSpace => 9

/-- Why a waiting record left the list without a release (R17): LIMIT 1, RESYNC 2, CLEAR 3 (11.4). -/
inductive DropCause where
  | limit | resync | clear
  deriving DecidableEq, Repr

def DropCause.code : DropCause → Nat
  | .limit => 1 | .resync => 2 | .clear => 3

/-- Why a portrait failed, in the order chapter 3 names the reasons (log entry 9). -/
inductive FailReason where
  | stripOrder | lineCount | abandoned
  deriving DecidableEq, Repr

def FailReason.code : FailReason → Nat
  | .stripOrder => 1 | .lineCount => 2 | .abandoned => 3

/-- Head-port reasons in the order of R149 (11.4). -/
inductive HeadReason where
  | noOffer | wrongPage | notPrinting | busy | notOldest | notInPath | badMessage
  deriving DecidableEq, Repr

def HeadReason.code : HeadReason → Nat
  | .noOffer => 1 | .wrongPage => 2 | .notPrinting => 3 | .busy => 4 | .notOldest => 5 | .notInPath => 6 | .badMessage => 7

/-- Page states in the order of 6.3 (11.4). -/
def PageState.code : PageState → Nat
  | .queued => 1 | .gathering => 2 | .composing => 3 | .offered => 4 | .printing => 5 | .inPath => 6 | .replay => 7

/-- Start causes in the order of 6.1 (11.4). -/
def StartCause.code : StartCause → Nat
  | .ready => 1 | .expired => 2 | .noHold => 3

/-- The class of a code (R165). -/
def NoticeCode.cls : NoticeCode → NoticeClass
  | .refused | .stallDiscard | .overflow | .framing | .resyncDone => .channel
  | .rosterTaken | .nameAltered => .roster
  | .portraitReady | .retakeReady | .portraitFailed | .versionRetired => .portrait
  | .pageTaken | .pageComposing | .pageCancelled | .pageFailed | .jobClosed => .page
  | .sheetOffered | .sheetAccepted | .sheetFaulted | .underrun | .engineRestart | .headProtocol => .sheet
  | .storeLow | .storeRecovered => .store
  | .templateLoaded | .templateFreed | .fontLoaded => .table

/-- A code's number within its class (11.4). -/
def NoticeCode.code : NoticeCode → Nat
  | .refused => 1 | .stallDiscard => 2 | .overflow => 3 | .framing => 4 | .resyncDone => 5
  | .rosterTaken => 1 | .nameAltered => 2
  | .portraitReady => 1 | .retakeReady => 2 | .portraitFailed => 3 | .versionRetired => 4
  | .pageTaken => 1 | .pageComposing => 2 | .pageCancelled => 3 | .pageFailed => 4 | .jobClosed => 5
  | .sheetOffered => 1 | .sheetAccepted => 2 | .sheetFaulted => 3 | .underrun => 4 | .engineRestart => 5 | .headProtocol => 6
  | .storeLow => 1 | .storeRecovered => 2
  | .templateLoaded => 1 | .templateFreed => 2 | .fontLoaded => 3

/-- A class's place among the gates, in the order of R165. -/
def classIndex : NoticeClass → Fin 8
  | .channel => 0 | .roster => 1 | .portrait => 2 | .page => 3 | .sheet => 4 | .store => 5 | .table => 6 | .reply => 7

/-- The eight classes in the order of R165. -/
def allClasses : List NoticeClass := [.channel, .roster, .portrait, .page, .sheet, .store, .table, .reply]

/-- The class of a return record. -/
def ReturnRecord.cls : ReturnRecord → NoticeClass
  | .notice n => n.code.cls
  | .reply _ => .reply

/-- Reply kinds: the query kind codes, and SET 7 (11.4). -/
def ReplyKind.code : ReplyKind → Nat
  | .status => 1 | .channel => 2 | .entry => 3 | .page => 4 | .job => 5 | .template => 6 | .set => 7

/-! ## Return records as bytes (11.4, 11.5) -/

/-- A packed item; a two-byte one is a free value where its value needs more than 16 bits (11.4, log entry 32). -/
def Item.bytes : Item → List Byte
  | .two n => beBytes 2 (if n < 65536 then n else (Config.wideItem n).toNat)
  | .four n => beBytes 4 n
  | .text t => beBytes 1 t.length ++ t

def packItems (items : List Item) : List Byte := items.flatMap Item.bytes

/-- The 40 bytes of a NOTICE (11.4). -/
def Notice.bytes (n : Notice) (mark : Bool) : List Byte :=
  let detail := packItems n.detail
  beBytes 1 129 ++ beBytes 1 mark.toNat ++ beBytes 2 40 ++ beBytes 4 n.tag ++
  beBytes 1 (classIndex n.code.cls + 1) ++ beBytes 1 n.code.code ++ beBytes 2 0 ++ beBytes 4 n.subject ++
  (detail ++ List.replicate (24 - detail.length) 0)

/-- The contents of a reply (11.4). -/
def ReplyContents.bytes : ReplyContents → List Byte
  | .items list => list.flatMap fun it =>
    let value := packItems it.2
    beBytes 2 it.1 ++ beBytes 2 value.length ++ value
  | .settings list => list.flatMap fun a =>
    beBytes 2 a.param ++ beBytes 1 a.clamped.toNat ++ beBytes 1 0 ++ beBytes 4 a.carried ++ beBytes 4 a.applied

/-- The bytes of a REPLY (11.4). -/
def Reply.bytes (r : Reply) (mark : Bool) : List Byte :=
  let contents := r.contents.bytes
  beBytes 1 130 ++ beBytes 1 mark.toNat ++ beBytes 2 (16 + contents.length) ++ beBytes 4 r.tag ++
  beBytes 1 r.kind.code ++ beBytes 1 (if r.present then 1 else 2) ++ beBytes 2 0 ++ beBytes 4 r.operand ++ contents

/-- The bytes of the return record in transfer. -/
def Transfer.bytes (t : Transfer) : List Byte :=
  match t.item with
  | .notice n => n.bytes t.mark
  | .reply r => r.bytes t.mark

/-- Bytes in pieces of at most 256, in order; `fuel` at least their number. -/
def pieces : Nat → List Byte → List (List Byte)
  | 0, _ => []
  | fuel + 1, bytes =>
    match bytes with
    | [] => []
    | _ :: _ => bytes.take Config.maxPayload :: pieces fuel (bytes.drop Config.maxPayload)

/-- The RETURN frames of a return record (R181): each but the last carries 256 bytes, and what bits 0 to 6 of a frame's first byte
hold is a free value (log entry 33). -/
def Transfer.frames (t : Transfer) : List (List Byte) :=
  (pieces t.bytes.length t.bytes).map fun p => beBytes 1 (Config.returnFrameBits p).toNat ++ beBytes 1 (p.length - 1) ++ p

/-- The bytes on the reverse link, or on the head port, of one output: a READY frame (R181), the frames of a return record,
a message to the press (R148, R182). -/
def Output.bytes : Output → List Byte
  | .ready r0 r1 r2 r3 mark => beBytes 1 (flagBits [r0, r1, r2, r3, false, false, mark, true])
  | .returnBegin t => t.frames.flatten
  | .returnEnd => []
  | .offer page bandCount bandHeight width attempt =>
    beBytes 1 1 ++ beBytes 1 0 ++ beBytes 2 page ++ beBytes 2 bandCount ++ beBytes 2 bandHeight ++ beBytes 2 width ++
    beBytes 1 attempt ++ beBytes 1 0
  | .bandBegin page band lines width filler last spoil pixels =>
    beBytes 1 2 ++ beBytes 1 (flagBits [filler, last, spoil]) ++ beBytes 2 page ++ beBytes 2 band ++ beBytes 2 lines ++
    beBytes 2 width ++ beBytes 2 0 ++ pixels
  | .bandEnd => []
  | .bandAborted => []
  | .purge page => beBytes 1 3 ++ beBytes 1 0 ++ beBytes 2 page

/-! ## Intake records as bytes (11.2, 11.3) -/

/-- A record of a kind code, a tag and a body, its flags 0. -/
def recordBytes (kind tag : Nat) (body : List Byte) : List Byte :=
  beBytes 1 kind ++ beBytes 1 0 ++ beBytes 2 (8 + body.length) ++ beBytes 4 tag ++ body

def jobOpenRecord (tag jobId target base limit : Nat) : List Byte :=
  recordBytes 1 tag (beBytes 1 jobId ++ beBytes 1 target ++ beBytes 2 0 ++ beBytes 4 base ++ beBytes 4 limit)

def jobCloseRecord (tag jobId : Nat) : List Byte := recordBytes 2 tag (beBytes 1 jobId ++ beBytes 3 0)

def rosterRecord (tag key publication : Nat) (name : List Byte) : List Byte :=
  recordBytes 3 tag (beBytes 4 key ++ beBytes 1 publication ++ beBytes 1 name.length ++ beBytes 2 0 ++ name)

def portraitHeadRecord (tag key version width height faceX faceY faceW faceH fixedGain : Nat) : List Byte :=
  recordBytes 16 tag (beBytes 4 key ++ beBytes 2 version ++ beBytes 2 width ++ beBytes 2 height ++ beBytes 2 faceX ++
    beBytes 2 faceY ++ beBytes 2 faceW ++ beBytes 2 faceH ++ beBytes 2 fixedGain)

def portraitStripRecord (tag key index lines : Nat) (pixels : List Byte) : List Byte :=
  recordBytes 17 tag (beBytes 4 key ++ beBytes 2 index ++ beBytes 2 lines ++ pixels)

def portraitEndRecord (tag key total : Nat) : List Byte :=
  recordBytes 18 tag (beBytes 4 key ++ beBytes 2 total ++ beBytes 2 0)

def slotEntryBytes (f : SlotFields) : List Byte :=
  beBytes 1 f.kind ++ beBytes 1 f.cell ++ beBytes 1 f.paired ++ beBytes 1 f.font ++ beBytes 1 f.align ++
  rgbBytes f.colour ++ beBytes 2 f.x ++ beBytes 2 f.y ++ beBytes 2 f.w ++ beBytes 2 f.h ++ beBytes 4 0

def templateRecord (tag number width height bandHeight : Nat) (background placeholder ink : Rgb)
    (slots : List SlotFields) : List Byte :=
  recordBytes 32 tag (beBytes 1 number ++ beBytes 1 0 ++ beBytes 2 width ++ beBytes 2 height ++ beBytes 2 bandHeight ++
    beBytes 2 slots.length ++ rgbBytes background ++ rgbBytes placeholder ++ rgbBytes ink ++ beBytes 5 0 ++
    slots.flatMap slotEntryBytes)

def fontRecord (tag number height tracking blank : Nat) : List Byte :=
  recordBytes 33 tag (beBytes 1 number ++ beBytes 1 height ++ beBytes 1 tracking ++ beBytes 1 blank)

def glyphRecord (tag number code advance : Nat) (bitmap : List Byte) : List Byte :=
  recordBytes 34 tag (beBytes 1 number ++ beBytes 1 code ++ beBytes 1 advance ++ beBytes 1 0 ++ bitmap)

def pageRecord (tag pageId hold jobId number attempts : Nat) (title : List Byte) (keys : List Nat) : List Byte :=
  recordBytes 48 tag (beBytes 2 pageId ++ beBytes 2 hold ++ beBytes 1 jobId ++ beBytes 1 number ++ beBytes 1 attempts ++
    beBytes 1 title.length ++ beBytes 1 keys.length ++ beBytes 3 0 ++ title ++ keys.flatMap (beBytes 4))

def pageCancelRecord (tag pageId : Nat) : List Byte := recordBytes 49 tag (beBytes 2 pageId ++ beBytes 2 0)

/-- A SET of pairs of a parameter code and a value. -/
def setRecord (tag : Nat) (pairs : List (Nat × Nat)) : List Byte :=
  recordBytes 64 tag (beBytes 1 pairs.length ++ beBytes 3 0 ++
    pairs.flatMap fun p => beBytes 2 p.1 ++ beBytes 2 0 ++ beBytes 4 p.2)

def queryRecord (tag kind operand : Nat) : List Byte :=
  recordBytes 65 tag (beBytes 1 kind ++ beBytes 3 0 ++ beBytes 4 operand)

def flagsClearRecord (tag selection : Nat) : List Byte := recordBytes 66 tag (beBytes 2 selection ++ beBytes 2 0)

def noticeFlushRecord (tag : Nat) : List Byte := recordBytes 67 tag []

def channelResetRecord (tag target : Nat) : List Byte := recordBytes 80 tag (beBytes 1 target ++ beBytes 3 0)

def clearRecord (tag : Nat) : List Byte := recordBytes 81 tag []

/-- The SET parameter code of a class's interval (11.2); 0, which names no parameter, for REPLY, whose interval cannot be
changed (R165). -/
def intervalParam : NoticeClass → Nat
  | .channel => 8 | .roster => 9 | .portrait => 10 | .page => 11 | .sheet => 12 | .store => 13 | .table => 14 | .reply => 0

/-! ## Forward frames and press messages as bytes (11.2, 11.6) -/

/-- A forward link frame. -/
def linkFrameBytes (ch : Chan) (sync : Bool) (payload : List Byte) : List Byte :=
  beBytes 1 (ch.val + 128 * sync.toNat) ++ beBytes 1 (payload.length - 1) ++ payload

/-- The command that one whole forward frame is; none where its bytes are not those its length byte announces. -/
def linkFrameCommand (bytes : List Byte) : Option Instr :=
  match bytes with
  | b0 :: b1 :: payload =>
    if payload.length = b1.toNat + 1 then
      some (.linkFrame ⟨b0.toNat % 4, Nat.mod_lt _ (by decide)⟩ (bit b0.toNat 7) payload)
    else none
  | _ => none

/-- A press message of a type and a page id (R182). -/
def pressBytes (type pageId : Nat) : List Byte := beBytes 1 type ++ beBytes 1 0 ++ beBytes 2 pageId

/-- The command that a press message of four bytes is (R182). -/
def pressCommand (bytes : List Byte) : Option Instr :=
  if bytes.length = 4 then
    let pageId := field bytes 2 2
    match field bytes 0 1 with
    | 17 => some (.start pageId)
    | 18 => some .demand
    | 19 => some (.done pageId)
    | 20 => some (.fault pageId)
    | 21 => some .restart
    | type => some (.badMessage type pageId)
  else none

end Sys2Proof.Machine
end

