-- ==== Sys2Proof/WellFormed.lean ====
section
/-! DEFINITION. Which commands can stand on the wire: every operand fits its field (11.2 to 11.6), a payload has 1 to 256
bytes, and a record has at most 4,096. A value that fits its field and lies outside its stated range is well formed: the
rules say what the part does with it. -/

namespace Sys2Proof

/-- `n` fits a field of `w` bytes. -/
def fitsBytes (w n : Nat) : Bool := decide (n < 256 ^ w)

/-- The seventeen kind codes of intake records (11.2). -/
def intakeKindCodes : List Nat := [1, 2, 3, 16, 17, 18, 32, 33, 34, 48, 49, 64, 65, 66, 67, 80, 81]

/-- Every field of a slot fits its width (11.3). -/
def SlotFields.wf (f : SlotFields) : Bool :=
  fitsBytes 1 f.kind && fitsBytes 1 f.cell && fitsBytes 1 f.paired && fitsBytes 1 f.font && fitsBytes 1 f.align &&
  fitsBytes 2 f.x && fitsBytes 2 f.y && fitsBytes 2 f.w && fitsBytes 2 f.h

/-- The command can stand on the wire it comes by. -/
def Instr.wf : Instr → Bool
  | .linkFrame _ _ payload => decide (1 ≤ payload.length) && decide (payload.length ≤ Config.maxPayload)
  | .masterReset => true
  | .unknownKind _ kind tag body =>
    fitsBytes 1 kind && !intakeKindCodes.contains kind && fitsBytes 4 tag && decide (8 + body.length ≤ Config.maxRecord)
  | .jobOpen _ tag jobId target base limit =>
    fitsBytes 4 tag && fitsBytes 1 jobId && fitsBytes 1 target && fitsBytes 4 base && fitsBytes 4 limit
  | .jobClose _ tag jobId => fitsBytes 4 tag && fitsBytes 1 jobId
  | .roster _ tag key publication name =>
    fitsBytes 4 tag && fitsBytes 4 key && fitsBytes 1 publication && fitsBytes 1 name.length
  | .portraitHead _ tag key version width height faceX faceY faceW faceH fixedGain =>
    fitsBytes 4 tag && fitsBytes 4 key && fitsBytes 2 version && fitsBytes 2 width && fitsBytes 2 height &&
    fitsBytes 2 faceX && fitsBytes 2 faceY && fitsBytes 2 faceW && fitsBytes 2 faceH && fitsBytes 2 fixedGain
  | .portraitStrip _ tag key index lines pixels =>
    fitsBytes 4 tag && fitsBytes 4 key && fitsBytes 2 index && fitsBytes 2 lines &&
    decide (16 + pixels.length ≤ Config.maxRecord)
  | .portraitEnd _ tag key total => fitsBytes 4 tag && fitsBytes 4 key && fitsBytes 2 total
  | .template _ tag number width height bandHeight _ _ _ slots =>
    fitsBytes 4 tag && fitsBytes 1 number && fitsBytes 2 width && fitsBytes 2 height && fitsBytes 2 bandHeight &&
    slots.all SlotFields.wf && decide (32 + 20 * slots.length ≤ Config.maxRecord)
  | .font _ tag number height tracking blank =>
    fitsBytes 4 tag && fitsBytes 1 number && fitsBytes 1 height && fitsBytes 1 tracking && fitsBytes 1 blank
  | .glyph _ tag number code advance bitmap =>
    fitsBytes 4 tag && fitsBytes 1 number && fitsBytes 1 code && fitsBytes 1 advance &&
    decide (12 + bitmap.length ≤ Config.maxRecord)
  | .page _ tag pageId hold jobId number attempts title keys =>
    fitsBytes 4 tag && fitsBytes 2 pageId && fitsBytes 2 hold && fitsBytes 1 jobId && fitsBytes 1 number &&
    fitsBytes 1 attempts && fitsBytes 1 title.length && fitsBytes 1 keys.length && keys.all (fitsBytes 4)
  | .pageCancel _ tag pageId => fitsBytes 4 tag && fitsBytes 2 pageId
  | .setReadyWatermark _ tag _ value => fitsBytes 4 tag && fitsBytes 4 value
  | .setStallLimit _ tag value => fitsBytes 4 tag && fitsBytes 4 value
  | .setGlobalTarget _ tag value => fitsBytes 4 tag && fitsBytes 4 value
  | .setLead _ tag value => fitsBytes 4 tag && fitsBytes 4 value
  | .setInterval _ tag cls value => fitsBytes 4 tag && fitsBytes 4 value && decide (cls ≠ .reply)
  | .setStoreLowMark _ tag value => fitsBytes 4 tag && fitsBytes 4 value
  | .queryStatus _ tag => fitsBytes 4 tag
  | .queryChannel _ tag channel => fitsBytes 4 tag && fitsBytes 4 channel
  | .queryEntry _ tag key => fitsBytes 4 tag && fitsBytes 4 key
  | .queryPage _ tag pageId => fitsBytes 4 tag && fitsBytes 4 pageId
  | .queryJob _ tag jobId => fitsBytes 4 tag && fitsBytes 4 jobId
  | .queryTemplate _ tag number => fitsBytes 4 tag && fitsBytes 4 number
  | .flagsClearOverflow _ tag _ => fitsBytes 4 tag
  | .flagsClearFraming _ tag _ => fitsBytes 4 tag
  | .flagsClearStoreLowSeen _ tag => fitsBytes 4 tag
  | .noticeFlush _ tag => fitsBytes 4 tag
  | .channelReset _ tag target => fitsBytes 4 tag && fitsBytes 1 target
  | .clear _ tag => fitsBytes 4 tag
  | .start pageId => fitsBytes 2 pageId
  | .demand => true
  | .done pageId => fitsBytes 2 pageId
  | .fault pageId => fitsBytes 2 pageId
  | .restart => true
  | .badMessage type pageId => fitsBytes 1 type && !([17, 18, 19, 20, 21] : List Nat).contains type && fitsBytes 2 pageId
  | .bandCompositionComplete => true
  | .bandSendingEnd => true
  | .returnTransferEnd => true
  | .stallLimitExpiry _ => true
  | .holdExpiry => true
  | .gateExpiry cls => decide (cls ≠ .reply)
  | .resetInputHigh => true

end Sys2Proof
end

