-- ==== Sys2Proof/Decode.lean ====
section
/-! DEFINITION. Reading commands from words. No row of the opcode table gives bits: the commands are frames, records, messages
and events, not words. The wire forms of 11.2 to 11.6 are read in Machine/Operands.lean. -/

namespace Sys2Proof

/-- The command that a word spells by the opcode table's bits: none, since no row of the table gives any. -/
def decodeTableWord (_nbits _w : Nat) : Option Instr := none

/-- The command that a forward link frame of the wire is, where its bytes are whole (11.2). -/
def decodeForwardFrame (bytes : List Byte) : Option Instr := Machine.linkFrameCommand bytes

/-- The command that a message from the press is, where it has its four bytes (R182). -/
def decodePressMessage (bytes : List Byte) : Option Instr := Machine.pressCommand bytes

/-- The record that a record command puts on its channel (11.2, 11.3); none for the other commands. -/
def Instr.wireRecord : Instr → Option (Chan × List Byte)
  | .linkFrame _ _ _ => none
  | .masterReset => none
  | .unknownKind ch kind tag body => some (ch, Machine.recordBytes kind tag body)
  | .jobOpen ch tag jobId target base limit => some (ch, Machine.jobOpenRecord tag jobId target base limit)
  | .jobClose ch tag jobId => some (ch, Machine.jobCloseRecord tag jobId)
  | .roster ch tag key publication name => some (ch, Machine.rosterRecord tag key publication name)
  | .portraitHead ch tag key version w h fx fy fw fh g =>
    some (ch, Machine.portraitHeadRecord tag key version w h fx fy fw fh g)
  | .portraitStrip ch tag key index lines pixels => some (ch, Machine.portraitStripRecord tag key index lines pixels)
  | .portraitEnd ch tag key total => some (ch, Machine.portraitEndRecord tag key total)
  | .template ch tag n w h bh bg ph ink slots => some (ch, Machine.templateRecord tag n w h bh bg ph ink slots)
  | .font ch tag number height tracking blank => some (ch, Machine.fontRecord tag number height tracking blank)
  | .glyph ch tag number code advance bitmap => some (ch, Machine.glyphRecord tag number code advance bitmap)
  | .page ch tag id hold job n attempts title keys => some (ch, Machine.pageRecord tag id hold job n attempts title keys)
  | .pageCancel ch tag pageId => some (ch, Machine.pageCancelRecord tag pageId)
  | .setReadyWatermark ch tag target value => some (ch, Machine.setRecord tag [(target.val + 1, value)])
  | .setStallLimit ch tag value => some (ch, Machine.setRecord tag [(5, value)])
  | .setGlobalTarget ch tag value => some (ch, Machine.setRecord tag [(6, value)])
  | .setLead ch tag value => some (ch, Machine.setRecord tag [(7, value)])
  | .setInterval ch tag cls value => some (ch, Machine.setRecord tag [(Machine.intervalParam cls, value)])
  | .setStoreLowMark ch tag value => some (ch, Machine.setRecord tag [(15, value)])
  | .queryStatus ch tag => some (ch, Machine.queryRecord tag 1 0)
  | .queryChannel ch tag channel => some (ch, Machine.queryRecord tag 2 channel)
  | .queryEntry ch tag key => some (ch, Machine.queryRecord tag 3 key)
  | .queryPage ch tag pageId => some (ch, Machine.queryRecord tag 4 pageId)
  | .queryJob ch tag jobId => some (ch, Machine.queryRecord tag 5 jobId)
  | .queryTemplate ch tag number => some (ch, Machine.queryRecord tag 6 number)
  | .flagsClearOverflow ch tag target => some (ch, Machine.flagsClearRecord tag (2 ^ target.val))
  | .flagsClearFraming ch tag target => some (ch, Machine.flagsClearRecord tag (2 ^ (4 + target.val)))
  | .flagsClearStoreLowSeen ch tag => some (ch, Machine.flagsClearRecord tag 256)
  | .noticeFlush ch tag => some (ch, Machine.noticeFlushRecord tag)
  | .channelReset ch tag target => some (ch, Machine.channelResetRecord tag target)
  | .clear ch tag => some (ch, Machine.clearRecord tag)
  | .start _ => none
  | .demand => none
  | .done _ => none
  | .fault _ => none
  | .restart => none
  | .badMessage _ _ => none
  | .bandCompositionComplete => none
  | .bandSendingEnd => none
  | .returnTransferEnd => none
  | .stallLimitExpiry _ => none
  | .holdExpiry => none
  | .gateExpiry _ => none
  | .resetInputHigh => none

end Sys2Proof
end

