-- ==== Sys2Proof/Machine/Flags.lean ====
section
/-! DEFINITION. Every condition and view that follows from what the part holds: ready levels, stalls, windows, photo
states, readiness, the font lock, the mapped buffers, the store low levels, the gates, pending bands and the lead. -/

namespace Sys2Proof.Machine

/-! ## Channels and the waiting list -/

/-- A channel's free space (1.1). -/
def Channel.space (c : Channel) : Nat := Config.bufferSize - c.buffer.length

/-- The level a channel's ready indication has by R2. -/
def Channel.readyLevel (c : Channel) : Bool := decide (c.watermark ≤ c.space)

/-- The channel's entry in the waiting list. -/
def State.waitOf (s : State) (ch : Chan) : Option WaitEntry := s.waiting.find? (·.ch = ch)

/-- The channel is stalled (1.7). -/
def State.stalled (s : State) (ch : Chan) : Bool := (s.waitOf ch).isSome

/-- An entry of another channel waits for the resource kind, and stands before `ch`'s own entry where `ch` has one (R13). -/
def State.olderWaiter (s : State) (ch : Chan) (kind : Resource) : Bool :=
  (s.waiting.takeWhile (·.ch ≠ ch)).any (·.kind = kind)

/-- The front record's length field, once it is in the buffer (R6). -/
def Channel.frontLength (c : Channel) : Option Nat := if 4 ≤ c.buffer.length then some (recLength c.buffer) else none

/-- A length outside 8 to 4,096 (R6, R7). -/
def badLength (len : Nat) : Bool := len < Config.minRecord || Config.maxRecord < len

/-- The bytes of the channel's front record (R6). -/
def Channel.front (c : Channel) : List Byte := c.buffer.take (recLength c.buffer)

/-- The channel has a front record to be dispatched or a framing error to be found (R6, R7, R10). -/
def State.presents (s : State) (ch : Chan) : Bool :=
  let c := s.chans[ch]
  c.mode = .active && !s.stalled ch &&
  match c.frontLength with
  | none => false
  | some len => badLength len || len ≤ c.buffer.length

/-! ## Jobs and entries -/

/-- The live job of an id. -/
def State.job? (s : State) (id : Nat) : Option Job := s.jobs.find? (·.id = id)

/-- A key lies in a job's window (R22). -/
def Job.holds (j : Job) (key : Nat) : Bool := j.base ≤ key && key ≤ j.limit

/-- Two windows overlap (R22). -/
def Job.overlaps (j : Job) (base limit : Nat) : Bool := j.base ≤ limit && base ≤ j.limit

/-- The live job whose window contains a key (R24). -/
def State.jobOfKey? (s : State) (key : Nat) : Option Job := s.jobs.find? (·.holds key)

/-- The result of the window claim: the job, or why it fails (R24). -/
def State.claim (s : State) (key : Nat) : Except Reason Job :=
  match s.jobOfKey? key with
  | none => .error .outOfWindow
  | some j => if j.state = .opened then .ok j else .error .jobClosing

/-- The entry of a key. -/
def State.entry? (s : State) (key : Nat) : Option Entry := s.entries.find? (·.key = key)

/-- Photo state, derived from the incoming and current roles (R33). -/
inductive PhotoState where
  | none | incoming | ready | retaking
  deriving DecidableEq, Repr

def Entry.photoState (e : Entry) : PhotoState :=
  match e.incoming.isSome, e.current.isSome with
  | false, false => .none
  | true, false => .incoming
  | false, true => .ready
  | true, true => .retaking

/-- Codes in the order the manual lists the photo states (11.4). -/
def PhotoState.code : PhotoState → Nat
  | .none => 1 | .incoming => 2 | .ready => 3 | .retaking => 4

/-- The version is filling (2.4). -/
def Version.filling (v : Version) : Bool :=
  match v.state with
  | .filling _ => true
  | .complete _ _ _ => false

/-- The complete version awaiting promotion in the entry (R37). -/
def Entry.awaiting (e : Entry) : Option Version :=
  match e.incoming with
  | some v => if v.filling then none else some v
  | none => none

/-- The version of a number that a page may hold: the current or the retiring one (R35). -/
def Entry.shown (e : Entry) (number : Nat) : Option Version :=
  match e.current with
  | some v => if v.number = number then some v else e.retiring.filter (·.number = number)
  | none => e.retiring.filter (·.number = number)

/-! ## The store -/

/-- How many blocks a list of runs holds. -/
def runCount (runs : List Run) : Nat := (runs.map (·.count)).sum

/-- The free count (R40). -/
def State.freeCount (s : State) : Nat := runCount s.freeBlocks

/-- The recovery level (R55). -/
def recoveryLevel (lowMark : Nat) : Nat := min (lowMark + Config.recoveryStep) Config.blockCount

/-! ## Templates and fonts -/

/-- The buffer is MAPPED (5.4). -/
def TemplateBuffer.mapped (t : TemplateBuffer) : Bool := t.superseded.isNone

/-- The first of the twelve buffers that meets a test. -/
def findBuffer (p : Fin 12 → Bool) : Option (Fin 12) := (List.finRange 12).find? p

/-- The buffer that a template number names (5.4). -/
def State.mappedBuffer (s : State) (number : Nat) : Option (Fin 12) :=
  findBuffer fun i =>
    match s.templates[i] with
    | some t => t.number = number && t.mapped
    | none => false

/-- The lowest-numbered FREE buffer (R80). -/
def State.freeTemplateBuffer (s : State) : Option (Fin 12) := findBuffer fun i => s.templates[i].isNone

/-- The cell number of a PORTRAIT slot. -/
def Slot.cell? (t : Slot) : Option Nat :=
  match t.kind with
  | .portrait c => some c
  | _ => none

/-- Insert into an ascending list. -/
def insertSorted {α : Type} (le : α → α → Bool) (x : α) : List α → List α
  | [] => [x]
  | y :: ys => if le x y then x :: y :: ys else y :: insertSorted le x ys

/-- A list in ascending order; equal members keep their order. -/
def sortBy {α : Type} (le : α → α → Bool) : List α → List α
  | [] => []
  | x :: xs => insertSorted le x (sortBy le xs)

/-- The cell set (R78), in ascending order of cell number (log entry 10: R78 gives a set without an order). -/
def TemplateBuffer.cellSet (t : TemplateBuffer) : List Nat :=
  sortBy (fun a b => decide (a ≤ b)) (t.bandIndex.filterMap Slot.cell?)

/-- The kept slots in slot-index order. -/
def TemplateBuffer.slots (t : TemplateBuffer) : List Slot :=
  sortBy (fun a b => decide (a.index ≤ b.index)) t.bandIndex

/-- The PORTRAIT slot of a cell. -/
def TemplateBuffer.cellSlot (t : TemplateBuffer) (cell : Nat) : Option Slot :=
  t.bandIndex.find? fun k => k.cell? = some cell

/-- The band count: ceil(page height / band height) (R75). -/
def TemplateBuffer.bandCount (t : TemplateBuffer) : Nat := (t.height + t.bandHeight - 1) / t.bandHeight

/-- The buffers each band of the template requires (R114). -/
def TemplateBuffer.need (t : TemplateBuffer) : Nat :=
  if t.width * t.bandHeight * 3 ≤ Config.bandBufferSize then 1 else 2

/-- The lines of band `b` (R114). -/
def TemplateBuffer.bandLines (t : TemplateBuffer) (b : Nat) : Nat := min t.bandHeight (t.height - b * t.bandHeight)

/-- The glyph of a code, where the font holds one. -/
def Font.glyph? (f : Font) (code : Nat) : Option Glyph := f.glyphs.find? (·.code = code)

/-! ## Pages -/

/-- The pinning states (6.3). -/
def PageState.pinning : PageState → Bool
  | .queued | .gathering => false
  | .composing | .offered | .printing | .inPath | .replay => true

/-- The states whose sheet is at the press. -/
def PageState.atPress : PageState → Bool
  | .offered | .printing | .inPath => true
  | .queued | .gathering | .composing | .replay => false

/-- The font lock is held (R88). -/
def State.fontLocked (s : State) : Bool := s.pages.any (·.state.pinning)

/-- The page record of an id. -/
def State.page? (s : State) (id : Nat) : Option Page := s.pages.find? (·.id = id)

/-- The page in GATHERING. -/
def State.gatheringPage (s : State) : Option Page := s.pages.find? (·.state = .gathering)

/-- The template buffer a page pinned. -/
def State.templateOf (s : State) (p : Page) : Option TemplateBuffer := s.templates[p.buffer]

/-- A page's band count, 0 where its buffer holds no template. -/
def State.bandCountOf (s : State) (p : Page) : Nat :=
  match s.templateOf p with
  | some t => t.bandCount
  | none => 0

/-- The subject of a key counts towards readiness (R97). -/
def State.subjectReady (s : State) (key : Nat) : Bool :=
  key = 0 ||
  match s.entry? key with
  | some e => e.withholdPhoto || e.photoState = .ready
  | none => false

/-- The page is ready (R97). -/
def State.pageReady (s : State) (p : Page) : Bool := p.cells.all fun c => s.subjectReady c.2

/-- The page may start (R98). -/
def State.mayStart (s : State) (p : Page) : Bool := p.permit || s.pageReady p

/-- A page is short when its missing count is at least 1 (R102). -/
def Page.short (p : Page) : Bool :=
  match p.cast with
  | some c => 1 ≤ c.missing
  | none => false

/-- The record of band `b` of a page. -/
def Page.band? (p : Page) (b : Nat) : Option BandRecord := p.bands.find? (·.index = b)

/-- The send log's entry for band `b`, unsent where there is no log (R115, R147). -/
def Page.mark (p : Page) (b : Nat) : SendMark := (p.sendLog[b]?).getD .unsent

/-- Band `b` is pending (R115). -/
def Page.bandPending (p : Page) (b : Nat) : Bool := p.state.pinning && (p.band? b).isNone && p.mark b ≠ .real

/-- The page's lowest-indexed pending band (R116). -/
def State.lowestPending (s : State) (p : Page) : Option Nat := (List.range (s.bandCountOf p)).find? p.bandPending

/-- The page meets the lead: its first bands have been composed, by its first-composition count (R112), and their records are
COMPOSED (R142). R142's condition decides: a band with a COMPOSED record has been composed, so that in every state a run reaches
the count is met where the records are (log entry 29). -/
def State.meetsLead (s : State) (p : Page) : Bool :=
  (p.state = .composing || p.state = .replay) && decide (min s.lead (s.bandCountOf p) ≤ p.firstCount) &&
  (List.range (min s.lead (s.bandCountOf p))).all fun b =>
    match p.band? b with
    | some r => r.state = .composed
    | none => false

/-- The buffers that the page's SENT records hold, with either mark (R140). -/
def Page.kept (p : Page) : Nat :=
  ((p.bands.filter fun r => r.state = .sent || r.state = .sentNot).map (·.buffers.length)).sum

/-- The page that is PRINTING. -/
def State.printingPage (s : State) : Option Page := s.pages.find? (·.state = .printing)

/-- The head port's candidate: the oldest page in REPLAY, else the oldest in COMPOSING (R150). -/
def State.candidate (s : State) : Option Page :=
  match s.pages.find? (·.state = .replay) with
  | some p => some p
  | none => s.pages.find? (·.state = .composing)

/-! ## The notice unit -/

/-- The class of a held entry. -/
def Held.cls (h : Held) : NoticeClass := h.item.cls

/-- The held entry is a notice. -/
def Held.isNotice (h : Held) : Bool :=
  match h.item with
  | .notice _ => true
  | .reply _ => false

/-- Notices held (R164). -/
def State.noticesHeld (s : State) : Nat := s.returnQueue.countP Held.isNotice

/-- The class's gate is open (R167). -/
def State.gateOpen (s : State) (cls : NoticeClass) : Bool :=
  let g := s.gates[classIndex cls]
  match g.last with
  | none => true
  | some t => decide (g.interval ≤ s.now - t)

/-- The pending set (10.1): the classes with a held entry. -/
def State.pendingSet (s : State) : List NoticeClass := allClasses.filter fun c => s.returnQueue.any (·.cls = c)

/-- The oldest releasable candidate of a queue, with the queue less it; `seen` are the classes whose candidate has been
passed (R168). -/
def State.pickReleasable (s : State) (seen : List NoticeClass) : List Held → Option (Held × List Held)
  | [] => none
  | h :: rest =>
    if !seen.contains h.cls && (h.flushed || s.gateOpen h.cls) then some (h, rest)
    else
      match s.pickReleasable (h.cls :: seen) rest with
      | some (x, left) => some (x, h :: left)
      | none => none

/-! ## Timers -/

/-- The waiting entry's stall limit has been reached (R16). -/
def State.stallDue (s : State) (e : WaitEntry) : Bool := s.stallLimit * Config.unitsPerMs ≤ s.now - e.start

/-- When the hold timer of a page expires, where it runs and can expire (R96). -/
def Page.holdEnd (p : Page) : Option Nat :=
  match p.timer with
  | .running start => if p.hold = Config.holdForever then none else some (start + p.hold * Config.unitsPerMs)
  | _ => none

end Sys2Proof.Machine
end

