-- ==== Sys2Proof/Machine/Ops.lean ====
section
/-! DEFINITION. The named operations over what the part holds: outputs, choices, channels, the return queue, the waiting
list, block lists, the frame store and the tables. Every meaning is written with these. -/

namespace Sys2Proof.Machine

/-! ## Outputs and choices -/

/-- The part sends `o`. -/
def emit (o : Output) (s : State) : State := { s with out := s.out ++ [o] }

/-- Take the next choice for events between which the manual gives no order (log entry 1): the chosen member of a list of
enabled events; a choice is used up only where there are two or more. -/
def choose {α : Type} (enabled : List α) (s : State) : Option (α × State) :=
  match enabled with
  | [] => none
  | [a] => some (a, s)
  | a :: rest => some (((a :: rest)[s.order.headD 0 % (rest.length + 1)]?).getD a, { s with order := s.order.tail })

/-- A counter of 32 bits raised by 1, saturating (R18). -/
def bump (n : Nat) : Nat := if n < Config.counterMax then n + 1 else n

/-! ## Channels -/

/-- Change one channel. -/
def modChan (ch : Chan) (f : Channel → Channel) (s : State) : State :=
  { s with chans := s.chans.set ch (f s.chans[ch]) }

/-- Send a READY frame with the four indications as they stand (R181). -/
def sendReady (mark : Bool) (s : State) : State :=
  emit (.ready s.chans[0].ready s.chans[1].ready s.chans[2].ready s.chans[3].ready mark) s

/-- Re-evaluate a channel's ready indication; a change of level is sent (R2). R181 lets one READY frame stand for several
changes: here every change sends its own at once, with the other indications as they stand then (log entry 28: the model's
choice). -/
def evalReady (ch : Chan) (s : State) : State :=
  if s.chans[ch].ready = s.chans[ch].readyLevel then s
  else sendReady false (modChan ch (fun c => { c with ready := c.readyLevel }) s)

/-- Bytes leave the front of a channel's buffer (R6). -/
def dropFront (ch : Chan) (len : Nat) (s : State) : State :=
  evalReady ch (modChan ch (fun c => { c with buffer := c.buffer.drop len }) s)

def setBinding (ch : Chan) (b : Binding) (s : State) : State := modChan ch (fun c => { c with binding := b }) s

/-! ## The return queue (R164, R168, R169) -/

/-- A release of some resource has happened: an examination of the waiting list is owed (R14). -/
def wakeUp (s : State) : State := { s with wake := true }

/-- The release rule: on an IDLE return channel the oldest releasable candidate leaves the queue, carrying its class's
overrun mark, and its transfer begins (R168, R169). -/
def releaseRule (s : State) : State :=
  match s.returnChannel with
  | some _ => s
  | none =>
    match s.pickReleasable [] s.returnQueue with
    | none => s
    | some (h, rest) =>
      let i := classIndex h.cls
      let t : Transfer := { item := h.item, mark := s.gates[i].overrun }
      wakeUp (emit (.returnBegin t)
        { s with
          returnQueue := rest
          gates := s.gates.set i { s.gates[i] with last := some s.now, overrun := false }
          returnChannel := some t })

/-- Set a class's overrun flag (R169). -/
def setOverrun (cls : NoticeClass) (s : State) : State :=
  { s with gates := s.gates.set (classIndex cls) { s.gates[classIndex cls] with overrun := true } }

/-- Post a notice: it is stored at the young end, unflushed, or lost, which sets its class's overrun flag (R164, R169); either
way the release rule is applied (R168). -/
def post (n : Notice) (s : State) : State :=
  if s.noticesHeld < Config.noticeEntries && s.returnQueue.length < Config.returnEntries then
    releaseRule { s with returnQueue := s.returnQueue ++ [{ item := .notice n, flushed := false }] }
  else releaseRule (setOverrun n.code.cls s)

/-- Store a reply in any free entry (R164). Where all 64 are held, which can happen to a SET's acknowledgement alone, it is
not stored and the REPLY class's overrun flag is set (R176). Either way the release rule is applied (R168). -/
def storeReply (r : Reply) (s : State) : State :=
  if s.returnQueue.length < Config.returnEntries then
    releaseRule { s with returnQueue := s.returnQueue ++ [{ item := .reply r, flushed := false }] }
  else releaseRule (setOverrun .reply s)

/-- Post a notice of a code with its tag, subject field and detail items. -/
def notify (code : NoticeCode) (tag subject : Nat) (detail : List Item) (s : State) : State :=
  post { code := code, tag := tag, subject := subject, detail := detail } s

/-- A set of flags as one 2-byte item, the first flag in bit 0 (11.4). -/
def flagItem (flags : List Bool) : Item := .two (flagBits flags)

/-! ## The waiting list (1.7) -/

/-- Remove the channel's entry. -/
def unwait (ch : Chan) (s : State) : State := { s with waiting := s.waiting.filter (·.ch ≠ ch) }

/-- Defer the channel's front record: a new stall, or the same stall with the kind now named (R13). -/
def deferRecord (ch : Chan) (kind : Resource) (s : State) : State :=
  if s.stalled ch then
    { s with waiting := s.waiting.map fun e => if e.ch = ch then { e with kind := kind } else e }
  else
    modChan ch (fun c => { c with stalls := bump c.stalls })
      { s with waiting := s.waiting ++ [{ ch := ch, kind := kind, start := s.now }] }

/-! ## Block lists (R40, R41) -/

/-- Two lists of runs one after the other; the last run of the first and the first of the second become one where they
meet. -/
def joinRuns : List Run → List Run → List Run
  | [], b => b
  | [r], b =>
    match b with
    | [] => [r]
    | q :: rest =>
      if r.first + r.count = q.first then { first := r.first, count := r.count + q.count } :: rest else r :: q :: rest
  | r :: r2 :: a, b => r :: joinRuns (r2 :: a) b

/-- The first `n` blocks of a list, and the rest. -/
def takeBlocks (n : Nat) : List Run → List Run × List Run
  | [] => ([], [])
  | r :: rest =>
    if n = 0 then ([], r :: rest)
    else if r.count ≤ n then
      let (taken, left) := takeBlocks (n - r.count) rest
      (r :: taken, left)
    else ([{ first := r.first, count := n }], { first := r.first + n, count := r.count - n } :: rest)

/-- The block numbers that runs stand for, in order. -/
def blockNumbers (runs : List Run) : List Nat := runs.flatMap fun r => List.range' r.first r.count

/-- A version's blocks return to the back of the free list, in block-list order; a release of BLOCKS (R40, R41). -/
def returnBlocks (runs : List Run) (s : State) : State := wakeUp { s with freeBlocks := joinRuns s.freeBlocks runs }

/-- Judge the store low state on the free count as it stands (R55, R56). -/
def judgeStore (tag : Nat) (s : State) : State :=
  if s.storeLow then
    if recoveryLevel s.lowMark ≤ s.freeCount then
      notify .storeRecovered tag 0 [.four s.freeCount, .four s.lowMark] { s with storeLow := false }
    else s
  else if s.freeCount < s.lowMark then
    notify .storeLow tag 0 [.four s.freeCount, .four s.lowMark] { s with storeLow := true, lowSeen := true }
  else s

/-! ## The frame store (3.1) -/

/-- What a cell that is not listed reads as (log entry 6). -/
abbrev unlistedByte : Byte := 0

/-- The canonical form of the store: addresses strictly rising, and no cell holds what an unlisted one reads as. -/
def storeWf (m : List Host.Cell) : Bool :=
  decide (m.Pairwise fun a b => a.1 < b.1) && m.all fun c => c.2 ≠ unlistedByte

/-- Read one byte. -/
def readByte (m : List Host.Cell) (a : Nat) : Byte :=
  match m.find? (·.1 = a) with
  | some c => c.2
  | none => unlistedByte

/-- The cells that list bytes at consecutive addresses. -/
def cellsOf : Nat → List Byte → List Host.Cell
  | _, [] => []
  | a, b :: rest => if b = unlistedByte then cellsOf (a + 1) rest else (a, b) :: cellsOf (a + 1) rest

/-- Write bytes at consecutive addresses from `a` on. -/
def writeBytes (m : List Host.Cell) (a : Nat) (bytes : List Byte) : List Host.Cell :=
  m.filter (fun c => c.1 < a) ++ cellsOf a bytes ++ m.filter fun c => a + bytes.length ≤ c.1

/-- Read `n` bytes at consecutive addresses; the list's cells below `a` are passed as they are met. -/
def readFrom : Nat → Nat → List Host.Cell → List Byte
  | 0, _, _ => []
  | n + 1, a, m =>
    match m.dropWhile (fun c => c.1 < a) with
    | [] => unlistedByte :: readFrom n (a + 1) []
    | c :: rest => if c.1 = a then c.2 :: readFrom n (a + 1) rest else unlistedByte :: readFrom n (a + 1) (c :: rest)

/-- The first address of a block: the block area begins after the band area (3.1). -/
def blockAddress (block : Nat) : Nat := Config.blockArea + block * Config.blockSize

/-- The first address of a band buffer (8.1). -/
def bufferAddress (buffer : Nat) : Nat := buffer * Config.bandBufferSize

/-- Where `n` bytes at `offset` of a storage lie: the storage is the concatenation of areas, each given by its first
address and its length; the answer is pieces of (address, length) in order (R41, R114). -/
def locate (offset n : Nat) : List (Nat × Nat) → List (Nat × Nat)
  | [] => []
  | (a, len) :: areas =>
    if n = 0 then []
    else if len ≤ offset then locate (offset - len) n areas
    else
      let here := min n (len - offset)
      (a + offset, here) :: locate 0 (n - here) areas

/-- Write bytes over pieces of (address, length) in order. -/
def writePieces : List (Nat × Nat) → List Byte → List Host.Cell → List Host.Cell
  | [], _, m => m
  | (a, n) :: rest, bytes, m => writePieces rest (bytes.drop n) (writeBytes m a (bytes.take n))

/-- Read the bytes of pieces of (address, length) in order. -/
def readPieces (m : List Host.Cell) (pieces : List (Nat × Nat)) : List Byte := pieces.flatMap fun p => readFrom p.2 p.1 m

/-- The areas of a version's storage: its blocks in block-list order (R41). -/
def blockAreas (runs : List Run) : List (Nat × Nat) := runs.map fun r => (blockAddress r.first, r.count * Config.blockSize)

/-- The areas of a band's storage: its first buffer, then its second (R114). -/
def bandAreas (buffers : List Nat) : List (Nat × Nat) := buffers.map fun n => (bufferAddress n, Config.bandBufferSize)

/-! ## Tables -/

/-- Replace the first member that meets a test. -/
def replaceFirst {α : Type} (p : α → Bool) (x : α) : List α → List α
  | [] => []
  | a :: rest => if p a then x :: rest else a :: replaceFirst p x rest

/-- Remove the first member that meets a test. -/
def removeFirst {α : Type} (p : α → Bool) : List α → List α
  | [] => []
  | a :: rest => if p a then rest else a :: removeFirst p rest

def setEntry (e : Entry) (s : State) : State := { s with entries := replaceFirst (·.key = e.key) e s.entries }

def setJob (j : Job) (s : State) : State := { s with jobs := replaceFirst (·.id = j.id) j s.jobs }

def setPage (p : Page) (s : State) : State := { s with pages := replaceFirst (·.id = p.id) p s.pages }

def setTemplate (i : Fin 12) (t : Option TemplateBuffer) (s : State) : State :=
  { s with templates := s.templates.set i t }

/-- Change the page of an id, where the queue holds one. -/
def modPage (id : Nat) (f : Page → Page) (s : State) : State :=
  match s.page? id with
  | some p => setPage (f p) s
  | none => s

/-- A value clamped to a range (the manual's Clamped). -/
def clamp (lo hi n : Nat) : Nat := max lo (min n hi)

/-! ## Verdicts (R9) -/

/-- What an owner does with a record: takes it, refuses it with a reason and further detail items, or defers it for a
resource kind. -/
inductive Verdict where
  | taken (s : State)
  | refused (reason : Reason) (extra : List Item)
  | deferred (kind : Resource)

end Sys2Proof.Machine
end

