-- ==== Sys2Proof/Machine/Fonts.lean ====
section
/-! DEFINITION. The font table (5.5, 5.6): the owners' judgement of FONT and GLYPH. The font lock is computed from the page
states (R88). -/

namespace Sys2Proof.Machine

/-- A font number above 1 names no font (R85, R86). -/
def fontIndex (n : Nat) : Fin 2 := if n = 0 then 0 else 1

/-- The record must wait for the font lock (R85, R86). -/
def State.fontWaits (s : State) (ch : Chan) : Bool := s.fontLocked || s.olderWaiter ch .fontLock

/-- FONT (R85). The flags of the values clamped are one set of flags, in the order of the values (log entry 17). -/
def judgeFont (ch : Chan) (b : List Byte) (s : State) : Verdict :=
  let n := field b 8 1
  if 1 < n then .refused .badField []
  else if s.fontWaits ch then .deferred .fontLock
  else
    let height := clamp 8 48 (field b 9 1)
    let tracking := clamp 0 8 (field b 10 1)
    let blank := clamp 1 48 (field b 11 1)
    let f : Font := { metrics := some { height := height, tracking := tracking, blank := blank }, glyphs := [] }
    .taken (notify .fontLoaded (recTag b) n
      [.two height, .two tracking, .two blank,
        flagItem [height ≠ field b 9 1, tracking ≠ field b 10 1, blank ≠ field b 11 1]]
      { s with fonts := s.fonts.set (fontIndex n) f })

/-- Store a glyph in its place, replacing any glyph of its code (R86). -/
def putGlyph (g : Glyph) (glyphs : List Glyph) : List Glyph :=
  insertSorted (fun a b => decide (a.code ≤ b.code)) g (glyphs.filter (·.code ≠ g.code))

/-- The bytes of a glyph's bitmap (R86). -/
def bitmapLength (height advance : Nat) : Nat := height * ((advance + 7) / 8)

/-- GLYPH (R86). -/
def judgeGlyph (ch : Chan) (b : List Byte) (s : State) : Verdict :=
  let n := field b 8 1
  let code := field b 9 1
  let advance := field b 10 1
  if 1 < n then .refused .badField []
  else if code < 32 || 126 < code then .refused .badGlyph [.two 2]
  else if advance < 1 || 48 < advance then .refused .badGlyph [.two 3]
  else if s.fontWaits ch then .deferred .fontLock
  else
    let f := s.fonts[fontIndex n]
    match f.metrics with
    | none => .refused .badGlyph [.two 5]
    | some m =>
      if b.length - 12 ≠ bitmapLength m.height advance then .refused .badGlyph [.two 6]
      else
        let g : Glyph := { code := code, advance := advance, bitmap := b.drop 12 }
        .taken { s with fonts := s.fonts.set (fontIndex n) { f with glyphs := putGlyph g f.glyphs } }

end Sys2Proof.Machine
end

