-- ==== Sys2Proof/Machine/Tone.lean ====
section
/-! DEFINITION. The tone meter's arithmetic (chapter 4): luminance, the face window, accumulation, mean, gain, and the
gain's application to a pixel. -/

namespace Sys2Proof.Machine

/-- The luminance of a pixel (R62). -/
def luminance (r g b : Byte) : Nat := (77 * r.toNat + 150 * g.toNat + 29 * b.toNat + 128) / 256

/-- The clipped face window of an image of size sw × sh (R63), or the default window where w or h is 0 (R64). -/
def faceWindow (sw sh x y w h : Nat) : Rect :=
  if w = 0 || h = 0 then { x := sw / 4, y := sh / 4, w := sw / 2, h := sh / 2 }
  else
    let x' := min x (sw - 1)
    let y' := min y (sh - 1)
    { x := x', y := y', w := min w (sw - x'), h := min h (sh - y') }

/-- The sum of the luminances of the whole pixels of a row of bytes. -/
def lumaSum : List Byte → Nat
  | r :: g :: b :: rest => luminance r g b + lumaSum rest
  | _ => 0

/-- The pixels of a line in the window's columns. -/
def windowPixels (win : Rect) (line : List Byte) : List Byte := (line.drop (win.x * 3)).take (win.w * 3)

/-- Meter `n` lines of `width` pixels, the first of index `y`: what they add to the tone sum and the tone count (R65). -/
def meterLines (win : Rect) (width : Nat) : Nat → Nat → List Byte → Nat × Nat
  | 0, _, _ => (0, 0)
  | n + 1, y, pixels =>
    let more := meterLines win width n (y + 1) (pixels.drop (width * 3))
    if win.y ≤ y && y < win.y + win.h then
      let px := windowPixels win (pixels.take (width * 3))
      (lumaSum px + more.1, px.length / 3 + more.2)
    else more

/-- The mean of a good END (R67). -/
def toneMean (sum count : Nat) : Nat := sum / count

/-- The measured gain of mean `m` towards target `t` (R68). -/
def measuredGain (t m : Nat) : Nat :=
  if m = 0 then Config.gainMax else clamp Config.gainMin Config.gainMax ((2 * t * 1024 + m) / (2 * m))

/-- The stored fixed gain: none for 0, else clamped (R42). -/
def storedFixedGain (g : Nat) : Option Nat := if g = 0 then none else some (clamp Config.gainMin Config.gainMax g)

/-- The gain of a version at its good END (R68, R69). -/
def gainAtEnd (fixedGain : Option Nat) (target mean : Nat) : Nat :=
  match fixedGain with
  | some g => clamp Config.gainMin Config.gainMax g
  | none => measuredGain target mean

/-- One channel value corrected by a gain (R71). -/
def applyGain (gain : Nat) (src : Byte) : Byte := BitVec.ofNat 8 (min 255 ((src.toNat * gain + 512) / 1024))

/-- A pixel corrected by a gain (R71). -/
def correctPixel (gain : Nat) (p : Rgb) : Rgb := { r := applyGain gain p.r, g := applyGain gain p.g, b := applyGain gain p.b }

end Sys2Proof.Machine
end

