-- ==== Sys2Proof/Machine/Directory.lean ====
section
/-! DEFINITION. The job table and the subject directory (chapter 2): role changes and promotions, pins, failure and
abandonment, job completion, and the owners' judgement of JOB OPEN, JOB CLOSE and ROSTER. -/

namespace Sys2Proof.Machine

/-! ## Roles (R34, R36, R37, R51, R52) -/

/-- A role change at a good END or at a promotion (R51): the entry afterwards, the blocks freed, and the replaced version
with whether it moved to the retiring role. -/
inductive RoleChange where
  | promoted (e : Entry) (freed : List Run) (replaced : Option (Nat × Bool))
  | awaits (e : Entry)
  deriving DecidableEq, Repr

/-- The change of roles that complete version `v` makes in its entry (R51). -/
def roleChange (e : Entry) (v : Version) : RoleChange :=
  match e.current with
  | none => .promoted { e with incoming := none, current := some v } [] none
  | some c =>
    if c.pins = 0 then .promoted { e with incoming := none, current := some v } c.blocks (some (c.number, false))
    else
      match e.retiring with
      | none => .promoted { e with incoming := none, current := some v, retiring := some c } [] (some (c.number, true))
      | some _ => .awaits { e with incoming := some v }

/-- The notices of a version's entry into the current role (R52). -/
def reportReady (key : Nat) (v : Version) (replaced : Option (Nat × Bool)) (s : State) : State :=
  match v.state with
  | .filling _ => s
  | .complete mean gain tag =>
    let s := notify .portraitReady tag key [.two v.number, .two mean, .two gain, flagItem [v.fixedGain.isSome]] s
    match replaced with
    | none => s
    | some (old, retiring) => notify .retakeReady tag key [.two v.number, .two old, .two (if retiring then 2 else 1)] s

/-- Complete version `v` takes its role in entry `e`, or awaits promotion (R51, R52); the emptied incoming role and any
freed blocks are releases. -/
def takeRole (e : Entry) (v : Version) (s : State) : State :=
  match roleChange e v with
  | .awaits e' => setEntry e' s
  | .promoted e' freed replaced => reportReady e.key v replaced (returnBlocks freed (setEntry e' s))

/-- Make the promotion that the entry of a key allows (R37). -/
def promote (key : Nat) (s : State) : State :=
  match s.entry? key with
  | none => s
  | some e =>
    match e.awaiting with
    | none => s
    | some v => takeRole e v s

/-- A page lets go of a version of a key: the pin count falls by 1, a retiring version at 0 is freed, and a pending
promotion may follow (R36, R37). `tag` is the causing record's tag, 0 where none caused it. -/
def unpinVersion (tag key number : Nat) (s : State) : State :=
  match s.entry? key with
  | none => s
  | some e =>
    match e.retiring.filter (·.number = number) with
    | some r =>
      if r.pins ≤ 1 then
        let s := returnBlocks r.blocks (setEntry { e with retiring := none } s)
        promote key (notify .versionRetired tag key [.two number] s)
      else setEntry { e with retiring := some { r with pins := r.pins - 1 } } s
    | none =>
      match e.current.filter (·.number = number) with
      | some c =>
        let s := setEntry { e with current := some { c with pins := c.pins - 1 } } s
        if c.pins ≤ 1 then promote key s else s
      | none => s

/-- A page pins the current version of a key (R35). -/
def pinVersion (key : Nat) (s : State) : State :=
  match s.entry? key with
  | none => s
  | some e =>
    match e.current with
    | none => s
    | some c => setEntry { e with current := some { c with pins := c.pins + 1 } } s

/-! ## Failure and abandonment (R53, R54) -/

/-- The filling version of a key. -/
def State.fillingVersion (s : State) (key : Nat) : Option Version :=
  match s.entry? key with
  | none => none
  | some e => e.incoming.filter Version.filling

/-- A filling version leaves: its reservation returns and the incoming role is emptied (R53). PORTRAIT-FAILED is posted
with the reason and the further items its rule names. -/
def failPortrait (key : Nat) (reason : FailReason) (tag : Nat) (extra : List Item) (s : State) : State :=
  match s.entry? key with
  | none => s
  | some e =>
    match e.incoming.filter Version.filling with
    | none => s
    | some v =>
      let s := returnBlocks v.blocks (setEntry { e with incoming := none } s)
      notify .portraitFailed tag key ([.two v.number, .two reason.code] ++ extra) s

/-- The portrait open on a channel is abandoned, and the binding becomes `after` of its key; a channel whose binding is
not OPEN is left as it is (R54). -/
def abandonOpen (ch : Chan) (tag : Nat) (after : Nat → Binding) (s : State) : State :=
  match s.chans[ch].binding with
  | .opened key _ => setBinding ch (after key) (failPortrait key .abandoned tag [] s)
  | _ => s

/-- The portrait open on a channel fails with STRIP-ORDER; `found` is the strip index found, 0 where none applies (R43,
R48, R49). -/
def failOpen (ch : Chan) (key tag found : Nat) (after : Binding) (s : State) : State :=
  let lines := ((s.fillingVersion key).map (·.lines)).getD 0
  setBinding ch after (failPortrait key .stripOrder tag [.two lines, .two found] s)

/-! ## Names (R31) -/

/-- Clean a name or a title: cut to its first `limit` characters, then each character outside 32 to 126 replaced by the
space; with whether that changed it (R31, R92). -/
def cleanName (limit : Nat) (name : List Byte) : List Byte × Bool :=
  let cut := name.take limit
  let clean := cut.map fun c => if 32 ≤ c.toNat && c.toNat ≤ 126 then c else 32
  (clean, clean ≠ name)

/-- A cleaned name, absent for length 0 (R30, R92). -/
def nameOf (clean : List Byte) : Option (List Byte) := if clean.isEmpty then none else some clean

/-! ## Job completion (R28) -/

/-- All blocks an entry's versions hold. -/
def Entry.blocks (e : Entry) : List (List Run) :=
  [e.incoming, e.current, e.retiring].filterMap fun v => v.map (·.blocks)

/-- A CLOSING job with no live pages completes: its entries are removed with their versions' blocks, its slot is freed, and
JOB-CLOSED is posted (R28). -/
def completeJob (j : Job) (s : State) : State :=
  match j.state with
  | .opened => s
  | .closing tag =>
    if j.livePages = 0 then
      let gone := s.entries.filter fun e => j.holds e.key
      let blocks := gone.flatMap Entry.blocks
      let s := { s with entries := s.entries.filter fun e => !j.holds e.key, jobs := removeFirst (·.id = j.id) s.jobs }
      let s := blocks.foldl (fun s runs => returnBlocks runs s) s
      notify .jobClosed tag j.id [.two gone.length, .four ((blocks.map runCount).sum)] (wakeUp s)
    else s

/-- The job's live-page count falls by 1, and a CLOSING job that reaches 0 completes (R27, R28, R107). -/
def dropLivePage (jobId : Nat) (s : State) : State :=
  match s.job? jobId with
  | none => s
  | some j =>
    let j := { j with livePages := j.livePages - 1 }
    completeJob j (setJob j s)

/-! ## Judging JOB OPEN, JOB CLOSE and ROSTER -/

/-- The target density a JOB OPEN stores (R22). -/
def storedTarget (t : Nat) : Nat := if t = 0 then 0 else clamp Config.targetMin Config.targetMax t

/-- JOB OPEN (R22, R23). -/
def judgeJobOpen (ch : Chan) (b : List Byte) (s : State) : Verdict :=
  let id := field b 8 1
  let base := field b 12 4
  let limit := field b 16 4
  if id = 0 || base = 0 || limit < base then .refused .badField []
  else if (s.job? id).isSome then .refused .duplicateJob []
  else if s.jobs.any (·.overlaps base limit) then .refused .windowOverlap []
  else if Config.jobSlots ≤ s.jobs.length || s.olderWaiter ch .jobSlot then .deferred .jobSlot
  else
    .taken { s with
      jobs := s.jobs ++ [{ id := id, base := base, limit := limit, target := storedTarget (field b 9 1)
                           state := .opened, livePages := 0 }] }

/-- A channel's open portrait, where its key's entry belongs to the job, is abandoned by the JOB CLOSE (R25, R54). -/
def abandonForJob (jobId tag : Nat) (s : State) (ch : Chan) : State :=
  match s.chans[ch].binding with
  | .opened key _ =>
    match s.entry? key with
    | some e => if e.jobId = jobId then abandonOpen ch tag .skipping s else s
    | none => s
  | _ => s

/-- JOB CLOSE (R25, R26). The open portraits of the job are abandoned channel 0 first: R54 orders their notices so, and that their
blocks join the back of the free list in the same order is the model's choice (log entry 5). -/
def judgeJobClose (b : List Byte) (s : State) : Verdict :=
  let id := field b 8 1
  let tag := recTag b
  match s.job? id with
  | none => .refused .noJob []
  | some j =>
    if j.state = .opened then
      let j := { j with state := .closing tag }
      let s := (List.finRange 4).foldl (abandonForJob id tag) (setJob j s)
      .taken (wakeUp (completeJob j s))
    else .refused .jobClosing []

/-- A new entry of a key for a job: no name, flags clear, empty roles (R29). -/
def newEntry (key jobId : Nat) : Entry where
  key := key
  jobId := jobId
  name := none
  withholdPhoto := false
  withholdName := false
  nameAltered := false
  incoming := none
  current := none
  retiring := none

/-- No entry can be created for the channel's record (R29). -/
def State.entryShort (s : State) (ch : Chan) : Bool := Config.directorySize ≤ s.entries.length || s.olderWaiter ch .entry

/-- The entry of a key, created if need be (R29). -/
def withEntry (key jobId : Nat) (s : State) : State :=
  match s.entry? key with
  | some _ => s
  | none => { s with entries := s.entries ++ [newEntry key jobId] }

/-- A taken ROSTER sets the entry's cleaned name and flags and posts ROSTER-TAKEN, and NAME-ALTERED after it where cleaning
changed the name (R30). -/
def takeRoster (key tag publication : Nat) (name : List Byte) (s : State) : State :=
  match s.entry? key with
  | none => s
  | some e =>
    let (clean, altered) := cleanName Config.nameLength name
    let e := { e with name := nameOf clean, withholdPhoto := bit publication 0, withholdName := bit publication 1,
                      nameAltered := altered }
    let s := notify .rosterTaken tag key [.two e.photoState.code] (setEntry e s)
    if altered then notify .nameAltered tag key [] s else s

/-- ROSTER (R29, R30, R180). -/
def judgeRoster (ch : Chan) (b : List Byte) (s : State) : Verdict :=
  let key := field b 8 4
  let publication := field b 12 1
  let nameLen := field b 13 1
  if b.length ≠ 16 + nameLen then .refused .badField []
  else if 4 ≤ publication then .refused .badField []
  else
    match s.claim key with
    | .error r => .refused r []
    | .ok j =>
      if (s.entry? key).isNone && s.entryShort ch then .deferred .entry
      else .taken (takeRoster key (recTag b) publication (b.drop 16) (withEntry key j.id s))

end Sys2Proof.Machine
end

