-- ==== Sys2Proof/Machine/Layout.lean ====
section
/-! DEFINITION. What is computed at composition start: the scaler's parameters (7.6) and the caption setter's layouts
(7.7). -/

namespace Sys2Proof.Machine

/-- A source size in 1/65,536ths of a pixel (7.6). -/
def subpixels (n : Nat) : Nat := n * 65536

/-- The scaler parameters of a source of sw × sh in a cell of cw × ch (R124, R125). -/
def scalerFor (sw sh cw ch : Nat) : Scaler :=
  let fit := min (subpixels sw / cw) (subpixels sh / ch)
  let step := max fit Config.stepMin
  let dw := min cw (subpixels sw / step)
  let dh := min ch (subpixels sh / step)
  { step := step, dw := dw, dh := dh, mx := (cw - dw) / 2, my := (ch - dh) / 2
    ox := (subpixels sw - step * dw) / 2, oy := (subpixels sh - step * dh) / 2
    undersized := fit < Config.stepMin }

/-- The source column that displayed column `i` samples (R125). -/
def Scaler.column (p : Scaler) (i : Nat) : Nat := (p.ox + i * p.step) / 65536

/-- The source line that displayed row `j` samples (R125). -/
def Scaler.line (p : Scaler) (j : Nat) : Nat := (p.oy + j * p.step) / 65536

/-! ## The caption setter -/

/-- The advance of a character in a font: its glyph's, or the blank advance (R126). -/
def advanceOf (f : Font) (m : FontMetrics) (c : Byte) : Nat :=
  match f.glyph? c.toNat with
  | some g => g.advance
  | none => m.blank

/-- The width of a text (R126). -/
def textWidth (f : Font) (m : FontMetrics) (text : List Byte) : Nat :=
  (text.map (advanceOf f m)).sum + m.tracking * (text.length - 1)

/-- The most characters, up to `n`, whose width is at most `w` (R128). -/
def longestFit (f : Font) (m : FontMetrics) (text : List Byte) (w : Nat) : Nat → Nat
  | 0 => 0
  | n + 1 => if textWidth f m (text.take (n + 1)) ≤ w then n + 1 else longestFit f m text w n

/-- The first of the fonts that meets a test, with its metrics (R127, R128). -/
def firstFont (fonts : Vector Font 2) (p : Font → FontMetrics → Bool) : List (Fin 2) → Option (Fin 2 × FontMetrics)
  | [] => none
  | i :: rest =>
    match fonts[i].metrics with
    | some m => if p fonts[i] m then some (i, m) else firstFont fonts p rest
    | none => firstFont fonts p rest

/-- The preferred font, then the other (R127). -/
def fontOrder (preference : Fin 2) : List (Fin 2) := if preference = 0 then [0, 1] else [1, 0]

/-- The left column of a text of width `tw` in a slot (R129). -/
def alignedX (a : Align) (r : Rect) (tw : Nat) : Nat :=
  match a with
  | .left => r.x
  | .centre => r.x + (r.w - tw) / 2
  | .right => r.x + r.w - tw

/-- A text set in font `i`: `n` of its characters, placed (R129). -/
def placedText (fonts : Vector Font 2) (r : Rect) (a : Align) (text : List Byte) (clipped : Bool) (i : Fin 2)
    (m : FontMetrics) (n : Nat) : CaptionLayout :=
  let tw := textWidth fonts[i] m (text.take n)
  .set clipped i n (alignedX a r tw) (r.y + (r.h - m.height) / 2) tw

/-- The layout of a text of at least one character in a slot's clipped rectangle (R127, R128). -/
def captionLayout (fonts : Vector Font 2) (r : Rect) (preference : Fin 2) (a : Align) (text : List Byte) : CaptionLayout :=
  let order := fontOrder preference
  match firstFont fonts (fun f m => decide (m.height ≤ r.h) && decide (textWidth f m text ≤ r.w)) order with
  | some (i, m) => placedText fonts r a text false i m text.length
  | none =>
    match firstFont fonts (fun _ m => decide (m.height ≤ r.h)) order with
    | none => .omitted
    | some (i, m) =>
      let n := longestFit fonts[i] m text r.w text.length
      if n = 0 then .omitted else placedText fonts r a text true i m n

end Sys2Proof.Machine
end

