-- ==== Sys2Proof/Machine/Templates.lean ====
section
/-! DEFINITION. The template table (5.1 to 5.4): judging, settling, clipping and pairing a TEMPLATE, its loading, and the
pins that pages place on buffers. -/

namespace Sys2Proof.Machine

/-- The fields of slot `i` of a TEMPLATE record (11.3). -/
def slotAt (b : List Byte) (i : Nat) : SlotFields :=
  let o := 32 + 20 * i
  { kind := field b o 1, cell := field b (o + 1) 1, paired := field b (o + 2) 1, font := field b (o + 3) 1
    align := field b (o + 4) 1, colour := rgbAt b (o + 5), x := field b (o + 8) 2, y := field b (o + 10) 2
    w := field b (o + 12) 2, h := field b (o + 14) 2 }

/-- The slots of a TEMPLATE record with their slot indices. -/
def carriedSlots (b : List Byte) (count : Nat) : List (Nat × SlotFields) := (List.range count).map fun i => (i, slotAt b i)

/-- The slot's kind code is one of the four (11.3). -/
def slotKnown (f : SlotFields) : Bool := 1 ≤ f.kind && f.kind ≤ 4

def isPortraitSlot (f : SlotFields) : Bool := f.kind = 2

/-- The slot index of the first PORTRAIT slot whose cell number an earlier PORTRAIT slot carries (R74, step 6). -/
def firstRepeatedCell : List Nat → List (Nat × SlotFields) → Option Nat
  | _, [] => none
  | seen, (i, f) :: rest =>
    if isPortraitSlot f then
      if seen.contains f.cell then some i else firstRepeatedCell (f.cell :: seen) rest
    else firstRepeatedCell seen rest

/-- Steps 4 to 6 of R74: the step that fails and the slot index of the first slot found at fault. -/
def slotFault (slots : List (Nat × SlotFields)) : Option (Nat × Nat) :=
  match slots.find? fun s => !slotKnown s.2 with
  | some (i, _) => some (4, i)
  | none =>
    match slots.find? fun s => isPortraitSlot s.2 && Config.cellMax < s.2.cell with
    | some (i, _) => some (5, i)
    | none => (firstRepeatedCell [] slots).map fun i => (6, i)

/-! ## Settling (R75, R76) -/

/-- The font preference settled: other than 0 or 1 takes 0 (R76). -/
def settledFont (p : Nat) : Fin 2 := if p = 1 then 1 else 0

/-- The alignment settled: an unknown code takes LEFT (R76). -/
def settledAlign (a : Nat) : Align := if a = 1 then .centre else if a = 2 then .right else .left

/-- The slot is a CAPTION or TITLE whose preference or alignment is replaced: counted as defaulted (R76). -/
def slotDefaulted (f : SlotFields) : Bool := (f.kind = 3 || f.kind = 4) && (1 < f.font || 2 < f.align)

/-- The kind of a slot with the fields that belong to it (R76). -/
def settledKind (f : SlotFields) : SlotKind :=
  if f.kind = 1 then .fill f.colour
  else if f.kind = 2 then .portrait f.cell
  else if f.kind = 3 then .caption f.paired (settledFont f.font) (settledAlign f.align)
  else .title (settledFont f.font) (settledAlign f.align)

/-- A slot's rectangle clipped to a page of pw × ph (R77); an empty one has width or height 0. -/
def clipSlot (pw ph : Nat) (f : SlotFields) : Rect :=
  if pw ≤ f.x || ph ≤ f.y then { x := f.x, y := f.y, w := 0, h := 0 }
  else { x := f.x, y := f.y, w := min f.w (pw - f.x), h := min f.h (ph - f.y) }

/-- The rectangle has an empty area (R77). -/
def Rect.empty (r : Rect) : Bool := r.w = 0 || r.h = 0

/-- The slots kept by R77: those with a non-empty clipped area. -/
def keptByClip (pw ph : Nat) (slots : List (Nat × SlotFields)) : List (Nat × SlotFields) :=
  slots.filter fun s => !(clipSlot pw ph s.2).empty

/-- The CAPTION pairs no cell of the cell set (R78). -/
def unpaired (cells : List Nat) (f : SlotFields) : Bool := f.kind = 3 && !cells.contains f.paired

/-- The kept slot's clipped area is smaller than the one it carried (R77). -/
def isClipped (pw ph : Nat) (f : SlotFields) : Bool :=
  let r := clipSlot pw ph f
  r.w ≠ f.w || r.h ≠ f.h

/-- Band-index order: by top line, then by slot index (R79). -/
def slotBefore (a b : Slot) : Bool := a.rect.y < b.rect.y || (a.rect.y = b.rect.y && a.index ≤ b.index)

/-- The band height settled (R75). -/
def settledBandHeight (bh : Nat) : Nat := if bh = 16 || bh = 32 || bh = 64 || bh = 128 then bh else Config.bandHeightDefault

/-- What a taken TEMPLATE makes of its record: the buffer's contents and the counts that TEMPLATE-LOADED carries (R75 to
R78, R81). -/
structure SettledTemplate where
  buffer : TemplateBuffer
  carried : Nat
  kept : Nat
  clipped : Nat
  defaulted : Nat
  droppedEmpty : Nat
  droppedUnpaired : Nat
  deriving DecidableEq, Repr

/-- Settle a TEMPLATE record (R75 to R79). -/
def settleTemplate (b : List Byte) : SettledTemplate :=
  let w := field b 10 2
  let h := field b 12 2
  let bh := field b 14 2
  let pw := clamp Config.pageSizeMin Config.pageWidthMax w
  let ph := clamp Config.pageSizeMin Config.pageHeightMax h
  let all := carriedSlots b (field b 16 2)
  let nonEmpty := keptByClip pw ph all
  let cells := (nonEmpty.filter fun s => isPortraitSlot s.2).map fun s => s.2.cell
  let kept := nonEmpty.filter fun s => !unpaired cells s.2
  let slots := kept.map fun s => ({ index := s.1, rect := clipSlot pw ph s.2, kind := settledKind s.2 } : Slot)
  { buffer :=
      { number := field b 8 1, tag := recTag b, superseded := none, pins := 0, width := pw, height := ph
        bandHeight := settledBandHeight bh, background := rgbAt b 18, placeholder := rgbAt b 21, ink := rgbAt b 24
        slotCount := field b 16 2, sizeClamped := pw ≠ w || ph ≠ h, bandDefaulted := settledBandHeight bh ≠ bh
        bandIndex := sortBy slotBefore slots }
    carried := all.length
    kept := kept.length
    clipped := kept.countP fun s => isClipped pw ph s.2
    defaulted := kept.countP fun s => slotDefaulted s.2
    droppedEmpty := all.length - nonEmpty.length
    droppedUnpaired := nonEmpty.length - kept.length }

/-! ## Loading (R80, R81) -/

/-- The number's previous buffer ceases to be mapped: it becomes FREE, or SUPERSEDED while pages pin it. Answers its
disposition: NONE 1, FREED 2, SUPERSEDED 3 (R81). -/
def unmapPrevious (tag : Nat) (previous : Option (Fin 12)) (s : State) : State × Nat :=
  match previous with
  | none => (s, 1)
  | some i =>
    match s.templates[i] with
    | none => (s, 1)
    | some t =>
      if t.pins = 0 then (wakeUp (setTemplate i none s), 2)
      else (setTemplate i (some { t with superseded := some tag }) s, 3)

/-- Load a settled template into buffer `i` and post TEMPLATE-LOADED, and TEMPLATE-FREED where the previous buffer became
FREE (R80, R81). -/
def loadTemplate (i : Fin 12) (x : SettledTemplate) (s : State) : State :=
  let n := x.buffer.number
  let tag := x.buffer.tag
  let previous := s.mappedBuffer n
  let (s, disposition) := unmapPrevious tag previous s
  let s := notify .templateLoaded tag n
    [.two i, .two x.carried, .two x.kept, .two x.clipped, .two x.defaulted, .two x.droppedEmpty, .two x.droppedUnpaired,
      .two x.buffer.bandCount, flagItem [x.buffer.sizeClamped, x.buffer.bandDefaulted], .two disposition]
    (setTemplate i (some x.buffer) s)
  match previous with
  | some old => if disposition = 2 then notify .templateFreed tag n [.two old] s else s
  | none => s

/-- TEMPLATE (R74, R83). -/
def judgeTemplate (ch : Chan) (b : List Byte) (s : State) : Verdict :=
  let count := field b 16 2
  if 7 < field b 8 1 then .refused .badField []
  else if Config.slotMax < count then .refused .badTemplate [.two 2, .two 0]
  else if b.length ≠ 32 + 20 * count then .refused .badTemplate [.two 3, .two 0]
  else
    match slotFault (carriedSlots b count) with
    | some (step, i) => .refused .badTemplate [.two step, .two i]
    | none =>
      match s.freeTemplateBuffer with
      | none => .deferred .templateBuffer
      | some i =>
        if s.olderWaiter ch .templateBuffer then .deferred .templateBuffer
        else .taken (loadTemplate i (settleTemplate b) s)

/-! ## Pins (R82) -/

/-- A page pins a buffer. -/
def pinTemplate (i : Fin 12) (s : State) : State :=
  match s.templates[i] with
  | none => s
  | some t => setTemplate i (some { t with pins := t.pins + 1 }) s

/-- A page lets go of a buffer; a SUPERSEDED one at 0 becomes FREE and TEMPLATE-FREED is posted (R82). -/
def unpinTemplate (i : Fin 12) (s : State) : State :=
  match s.templates[i] with
  | none => s
  | some t =>
    match t.superseded with
    | none => setTemplate i (some { t with pins := t.pins - 1 }) s
    | some tag =>
      if t.pins ≤ 1 then notify .templateFreed tag t.number [.two i] (wakeUp (setTemplate i none s))
      else setTemplate i (some { t with pins := t.pins - 1 }) s

end Sys2Proof.Machine
end

