-- ==== Sys2Proof/Machine/Pages.lean ====
section
/-! DEFINITION. The page queue (chapter 6): judging and taking a PAGE, the next page, composition start and the cast list,
terminal release, and PAGE CANCEL. -/

namespace Sys2Proof.Machine

/-! ## The next page (R95, R96) -/

/-- A page enters GATHERING: a hold time of 0 sets its permit at once and starts no timer; any other starts the timer
(R96). -/
def enterGathering (now : Nat) (p : Page) : Page :=
  { p with state := .gathering, permit := p.hold = 0, timer := if p.hold = 0 then .notStarted else .running now }

/-- Where no page is in GATHERING, the oldest page in QUEUED enters it (R95). -/
def fillGathering (s : State) : State :=
  match s.gatheringPage with
  | some _ => s
  | none =>
    match s.pages.find? (·.state = .queued) with
    | some p => setPage (enterGathering s.now p) s
    | none => s

/-! ## Taking a PAGE (R91 to R94) -/

/-- The cell keys a PAGE record carries, cell 0 first (11.3). -/
def pageKeys (b : List Byte) : List Nat :=
  (List.range (field b 16 1)).map fun i => field b (20 + field b 15 1 + 4 * i) 4

/-- The position of the first nonzero key outside the job's window (R91, step 6). -/
def firstOutside (j : Job) (keys : List Nat) : Option Nat := keys.findIdx? fun k => k ≠ 0 && !j.holds k

/-- The position of the first nonzero key that stands at an earlier position too (R91, step 7). -/
def firstRepeatedKey (keys : List Nat) : Option Nat :=
  (List.range keys.length).find? fun i =>
    let k := (keys[i]?).getD 0
    k ≠ 0 && (keys.take i).contains k

/-- Max attempts as stored (R92). -/
def storedAttempts (n : Nat) : Nat := if n = 0 || Config.attemptsMax < n then Config.attemptsMax else n

/-- The page's cells: each cell of the cell set with its key, 0 past the end of the list (R93). -/
def pageCells (cells keys : List Nat) : List (Nat × Nat) := cells.map fun c => (c, (keys[c]?).getD 0)

/-- The positions of the list whose cell number is not in the cell set (R93). -/
def ignoredCells (cells keys : List Nat) : Nat := (List.range keys.length).countP fun i => !cells.contains i

/-- A PAGE is taken for a job with a mapped buffer (R92). -/
def takePage (b : List Byte) (j : Job) (i : Fin 12) (t : TemplateBuffer) (s : State) : State :=
  let attempts := field b 14 1
  let (title, altered) := cleanName Config.titleLength ((b.drop 20).take (field b 15 1))
  let keys := pageKeys b
  let ignored := ignoredCells t.cellSet keys
  let p : Page :=
    { id := field b 8 2, jobId := j.id, tag := recTag b, buffer := i, maxAttempts := storedAttempts attempts
      hold := field b 10 2, title := nameOf title, cells := pageCells t.cellSet keys, state := .queued, permit := false
      timer := .notStarted, cast := none, attempt := 0, spoiled := false, firstCount := 0, bands := [], sendLog := [] }
  let ahead := s.pages.length
  let s := setJob { j with livePages := j.livePages + 1 } (pinTemplate i { s with pages := s.pages ++ [p] })
  fillGathering (notify .pageTaken p.tag p.id
    [.two ahead, .two i, .two p.maxAttempts, .two ignored,
      flagItem [p.maxAttempts ≠ attempts, altered, 0 < ignored]] s)

/-- PAGE (R91, R94). -/
def judgePage (ch : Chan) (b : List Byte) (s : State) : Verdict :=
  let id := field b 8 2
  let number := field b 13 1
  let keys := pageKeys b
  if id = 0 || 7 < number || 80 < field b 16 1 || b.length ≠ 20 + field b 15 1 + 4 * field b 16 1 then
    .refused .badField []
  else if (s.page? id).isSome then .refused .duplicatePage []
  else
    match s.job? (field b 12 1) with
    | none => .refused .noJob []
    | some j =>
      if j.state ≠ .opened then .refused .jobClosing []
      else
        match s.mappedBuffer number with
        | none => .refused .noTemplate []
        | some i =>
          match firstOutside j keys, firstRepeatedKey keys, s.templates[i] with
          | some at', _, _ => .refused .outOfWindow [.two at']
          | none, some at', _ => .refused .duplicateKey [.two at']
          | none, none, none => .refused .noTemplate []
          | none, none, some t =>
            if Config.pageSlots ≤ s.pages.length || s.olderWaiter ch .pageSlot then .deferred .pageSlot
            else .taken (takePage b j i t s)

/-! ## Composition start (R99 to R102) -/

/-- The cast record of one cell of a page (R100). -/
def captureCell (s : State) (t : TemplateBuffer) (cell key : Nat) : CastRecord :=
  if key = 0 then { cell := cell, key := key, content := .empty, text := none }
  else
    match s.entry? key with
    | none => { cell := cell, key := key, content := .missing, text := none }
    | some e =>
      let content : CellContent :=
        if e.withholdPhoto then .withheld
        else
          match e.current, t.cellSlot cell with
          | some v, some k => .portrait v.number (scalerFor v.width v.height k.rect.w k.rect.h)
          | _, _ => .missing
      { cell := cell, key := key, content := content, text := if e.withholdName then none else e.name }

/-- The caption text of a cell of the cast list (R100, R101). -/
def castText (cells : List CastRecord) (cell : Nat) : Option (List Byte) :=
  match cells.find? (·.cell = cell) with
  | some c => c.text
  | none => none

/-- The caption record of a kept slot: none for a FILL or PORTRAIT slot (R101, R130). -/
def captureCaption (s : State) (cells : List CastRecord) (title : Option (List Byte)) (k : Slot) : Option CaptionRecord :=
  let record (text : Option (List Byte)) (font : Fin 2) (align : Align) : Option CaptionRecord :=
    some { slot := k.index, text := text, layout := text.map (captionLayout s.fonts k.rect font align) }
  match k.kind with
  | .caption paired font align => record (castText cells paired) font align
  | .title font align => record title font align
  | .fill _ => none
  | .portrait _ => none

/-- The version number a cast record pins, with its key (R35). -/
def CastRecord.pinned (c : CastRecord) : Option (Nat × Nat) :=
  match c.content with
  | .portrait n _ => some (c.key, n)
  | _ => none

def CastRecord.undersized (c : CastRecord) : Bool :=
  match c.content with
  | .portrait _ p => p.undersized
  | _ => false

def CaptionRecord.isClipped (c : CaptionRecord) : Bool :=
  match c.layout with
  | some (.set clipped _ _ _ _ _) => clipped
  | _ => false

/-- The cast list, caption records, start cause and counts of a page at its composition start (R99 to R102). -/
def capture (s : State) (t : TemplateBuffer) (p : Page) : Cast :=
  let cells := p.cells.map fun c => captureCell s t c.1 c.2
  let captions := t.slots.filterMap (captureCaption s cells p.title)
  { cells := cells, captions := captions
    cause := if s.pageReady p then .ready else if p.timer = .expired then .expired else .noHold
    missing := cells.countP (·.content = .missing)
    withheld := cells.countP (·.content = .withheld)
    undersized := cells.countP CastRecord.undersized
    clipped := captions.countP CaptionRecord.isClipped
    omitted := captions.countP fun c => c.layout = some .omitted }

/-- A page leaves GATHERING by its composition start: its permit is clear and a running hold timer has stopped (R96); a
stopped timer is held as one that is not started, since 6.1 has no other value for it (log entry 31). -/
def leaveGathering (p : Page) : Page :=
  { p with state := .composing, permit := false, timer := if p.timer = .expired then .expired else .notStarted }

/-- Composition start of the page in GATHERING (R99): the cast list with its pins, the counts and the cause, COMPOSING (which
takes the font lock, R88), PAGE-COMPOSING, and the next page. -/
def compositionStart (p : Page) (s : State) : State :=
  match s.templateOf p with
  | none => s
  | some t =>
    let cast := capture s t p
    let s := (cast.cells.filterMap CastRecord.pinned).foldl (fun s k => pinVersion k.1 s) s
    let p := { leaveGathering p with cast := some cast }
    fillGathering (notify .pageComposing p.tag p.id
      [.two cast.cause.code, .two cast.missing, .two cast.withheld, .two cast.undersized, .two cast.clipped,
        .two cast.omitted, flagItem [p.short]] (setPage p s))

/-! ## Terminal release (R107) -/

/-- Free band buffers: each takes its place in ascending order (R133). -/
def freeBandBuffers (buffers : List Nat) (s : State) : State :=
  { s with freeBuffers := buffers.foldl (fun free n => insertSorted (fun a b => decide (a ≤ b)) n free) s.freeBuffers }

/-- The compositor's work on a page is abandoned (R118, R120). -/
def Compositor.abandon (id : Nat) : Compositor → Compositor
  | .free => .free
  | .waiting item need => if item.page = id then .free else .waiting item need
  | .busy item need => if item.page = id then .free else .busy item need

/-- A page record leaves the queue with its band records (R107, steps 4 and 5; R143). -/
def removePage (p : Page) (s : State) : State :=
  let s := freeBandBuffers (p.bands.flatMap (·.buffers)) s
  { s with pages := removeFirst (·.id = p.id) s.pages, compositor := s.compositor.abandon p.id }

/-- Terminal release of the page of an id, in the order of R107: its notice, its version pins in cell order, its template
pin, its band records, its record and its job's count. PAGE-SLOT is released (R94), and the font lock where no page in a
pinning state remains (R88). `tag` is the causing record's tag, 0 where none caused it. -/
def releasePage (tag id : Nat) (announce : Page → State → State) (s : State) : State :=
  match s.page? id with
  | none => s
  | some p =>
    let s := announce p s
    let named := match p.cast with
      | some c => c.cells.filterMap CastRecord.pinned
      | none => []
    let s := named.foldl (fun s k => unpinVersion tag k.1 k.2 s) s
    let s := removePage p (unpinTemplate p.buffer s)
    fillGathering (wakeUp (dropLivePage p.jobId s))

/-! ## PAGE CANCEL (R104, R105) -/

/-- PAGE CANCEL. -/
def judgePageCancel (b : List Byte) (s : State) : Verdict :=
  let id := field b 8 2
  match s.page? id with
  | none => .refused .unknownPage []
  | some p =>
    if p.state.atPress then .refused .tooLate []
    else
      .taken (releasePage (recTag b) id (fun p => notify .pageCancelled (recTag b) p.id [.two p.state.code]) s)

end Sys2Proof.Machine
end

