-- ==== Sys2Proof/Machine/Paint.lean ====
section
/-! DEFINITION. The pixels of a band (7.5): the layers of R121, the cells of R122 and the captions of R131. -/

namespace Sys2Proof.Machine

/-- The kept slots that intersect band `b`: the walk of the band index, which ends at the first slot whose top is at or
below the band's end (R79). -/
def TemplateBuffer.bandSlots (t : TemplateBuffer) (b : Nat) : List Slot :=
  (t.bandIndex.takeWhile fun k => k.rect.y < (b + 1) * t.bandHeight).filter fun k => b * t.bandHeight < k.rect.y + k.rect.h

/-- A pixel lies in a rectangle. -/
def Rect.covers (r : Rect) (col line : Nat) : Bool := r.x ≤ col && col < r.x + r.w && r.y ≤ line && line < r.y + r.h

/-- The source pixel of a version at column `x` of line `y`, read from its blocks (R41, R122). -/
def sourcePixel (m : List Host.Cell) (v : Version) (x y : Nat) : Rgb :=
  rgbAt (readPieces m (locate (y * (v.width * 3) + x * 3) 3 (blockAreas v.blocks))) 0

/-- The gain of a complete version (R70). -/
def Version.gain (v : Version) : Nat :=
  match v.state with
  | .complete _ gain _ => gain
  | .filling _ => 0

/-- The pixel that a PORTRAIT cell paints: a corrected source pixel in the displayed area, the background in the margins
(R122). -/
def portraitPixel (m : List Host.Cell) (v : Version) (p : Scaler) (r : Rect) (background : Rgb) (col line : Nat) : Rgb :=
  let i := col - (r.x + p.mx)
  let j := line - (r.y + p.my)
  if r.x + p.mx ≤ col && i < p.dw && r.y + p.my ≤ line && j < p.dh then
    correctPixel v.gain (sourcePixel m v (p.column i) (p.line j))
  else background

/-- A glyph's pixel at bitmap column `c` and row `r` is ink: rows are padded to whole bytes, the leftmost pixel in the most
significant bit (R86, 11.2). -/
def Glyph.ink (g : Glyph) (c r : Nat) : Bool := bit (byteAt g.bitmap (r * ((g.advance + 7) / 8) + c / 8)).toNat (7 - c % 8)

/-- Some character of a text whose left column is `x` has ink at page column `col` of its row `row` (R129, R131). -/
def inkAt (f : Font) (m : FontMetrics) (col row : Nat) : Nat → List Byte → Bool
  | _, [] => false
  | x, c :: rest =>
    (match f.glyph? c.toNat with
     | some g => x ≤ col && col < x + g.advance && g.ink (col - x) row
     | none => false) ||
    inkAt f m col row (x + advanceOf f m c + m.tracking) rest

/-- A caption record has ink at a page pixel (R131). -/
def captionInk (fonts : Vector Font 2) (c : CaptionRecord) (col line : Nat) : Bool :=
  match c.layout, c.text with
  | some (.set _ i n x y _), some text =>
    match fonts[i].metrics with
    | some m => y ≤ line && line < y + m.height && inkAt fonts[i] m col (line - y) x (text.take n)
    | none => false
  | _, _ => false

/-- The version that a page's cast record names (R100, R122). -/
def State.castVersion (s : State) (key number : Nat) : Option Version :=
  match s.entry? key with
  | some e => e.shown number
  | none => none

/-- What a slot makes of the pixel beneath it, the pixel lying in the slot's rectangle (R121, R122). -/
def paintSlot (s : State) (t : TemplateBuffer) (cast : Cast) (k : Slot) (col line : Nat) (below : Rgb) : Rgb :=
  match k.kind with
  | .fill colour => colour
  | .portrait cell =>
    match cast.cells.find? (·.cell = cell) with
    | none => below
    | some c =>
      match c.content with
      | .empty => below
      | .missing | .withheld => t.placeholder
      | .portrait number p =>
        match s.castVersion c.key number with
        | some v => portraitPixel s.store v p k.rect t.background col line
        | none => t.background
  | .caption _ _ _ | .title _ _ =>
    match cast.captions.find? (·.slot = k.index) with
    | some c => if captionInk s.fonts c col line then t.ink else below
    | none => below

/-- The pixel at a column and page line of band `b`: the background, then each intersecting slot in slot-index order, each
painted over those before it (R121). -/
def bandPixel (s : State) (t : TemplateBuffer) (cast : Cast) (b col line : Nat) : Rgb :=
  (sortBy (fun x y => decide (x.index ≤ y.index)) (t.bandSlots b)).foldl
    (fun below k => if k.rect.covers col line then paintSlot s t cast k col line below else below) t.background

/-- The bytes of band `b`: its lines from the top, each of page width pixels (R114, R121). -/
def bandBytes (s : State) (t : TemplateBuffer) (cast : Cast) (b : Nat) : List Byte :=
  (List.range (t.bandLines b)).flatMap fun l =>
    (List.range t.width).flatMap fun col => rgbBytes (bandPixel s t cast b col (b * t.bandHeight + l))

/-- The pixels of a filler band: background colour throughout (R155). -/
def fillerBytes (t : TemplateBuffer) (b : Nat) : List Byte :=
  (List.replicate (t.bandLines b * t.width) (rgbBytes t.background)).flatten

end Sys2Proof.Machine
end

