-- ==== Sys2Proof/Machine/Bands.lean ====
section
/-! DEFINITION. The compositor's choice of work and the band queue (7.3, 7.4, chapter 8): selection, allocation and reclaim,
completion, retention and the return of records at a replay. -/

namespace Sys2Proof.Machine

/-! ## Band records (R133, R134) -/

/-- A band record is removed and its buffers are freed (R134). -/
def dropBand (id b : Nat) (s : State) : State :=
  match s.page? id with
  | none => s
  | some p =>
    match p.band? b with
    | none => s
    | some r => setPage { p with bands := removeFirst (·.index = b) p.bands } (freeBandBuffers r.buffers s)

/-- Change the state of a band's record. -/
def setBandState (b : Nat) (st : BandState) (p : Page) : Page :=
  { p with bands := p.bands.map fun r => if r.index = b then { r with state := st } else r }

/-! ## Reclaim and allocation (R135 to R137) -/

/-- The page id and band index of the page's records in a state, in ascending order of index. -/
def Page.bandsIn (p : Page) (st : BandState) : List (Nat × Nat) :=
  (p.bands.filter fun r => r.state = st).map fun r => (p.id, r.index)

/-- The records that may be reclaimed for a band of page `id`, in the order of R136: SENT marked sent, of other pages in
PRINTING or IN PATH, oldest page and lowest index first; then COMPOSED, of younger pages in COMPOSING or REPLAY, youngest
page and highest index first. -/
def State.reclaimOrder (s : State) (id : Nat) : List (Nat × Nat) :=
  let sent := s.pages.flatMap fun q =>
    if q.id ≠ id && (q.state = .printing || q.state = .inPath) then q.bandsIn .sent else []
  let younger := (s.pages.dropWhile (·.id ≠ id)).drop 1
  let composed := younger.reverse.flatMap fun q =>
    if q.state = .composing || q.state = .replay then (q.bandsIn .composed).reverse else []
  sent ++ composed

/-- The buffers that a list of records holds. -/
def State.heldBy (s : State) (records : List (Nat × Nat)) : Nat :=
  (records.map fun k =>
    match (s.page? k.1).bind (·.band? k.2) with
    | some r => r.buffers.length
    | none => 0).sum

/-- Reclaim records in order until the free list holds `need` buffers (R135). -/
def reclaimUntil (need : Nat) : List (Nat × Nat) → State → State
  | [], s => s
  | k :: rest, s => if need ≤ s.freeBuffers.length then s else reclaimUntil need rest (dropBand k.1 k.2 s)

/-- The lowest free buffers go to a new record in state COMPOSING, and the compositor is BUSY (R119, R133, R135). -/
def beginBand (item : WorkItem) (need : Nat) (s : State) : State :=
  let r : BandRecord := { index := item.band, buffers := s.freeBuffers.take need, state := .composing }
  let s := { s with freeBuffers := s.freeBuffers.drop need, compositor := .busy item need }
  modPage item.page (fun p => { p with bands := insertSorted (fun a b => decide (a.index ≤ b.index)) r p.bands }) s

/-- The band queue's answer to a selection: buffers from the free list, by reclaim where that suffices, else the compositor
is WAITING (R118, R135). -/
def allocate (item : WorkItem) (s : State) : State :=
  match (s.page? item.page).bind s.templateOf with
  | none => { s with compositor := .free }
  | some t =>
    if t.need ≤ s.freeBuffers.length then beginBand item t.need s
    else
      let order := s.reclaimOrder item.page
      if s.freeBuffers.length + s.heldBy order < t.need then { s with compositor := .waiting item t.need }
      else beginBand item t.need (reclaimUntil t.need order s)

/-! ## Selection (R116, R117) -/

/-- Replay work, else forward work (R116). -/
def State.bandWork (s : State) : Option WorkItem :=
  match s.pages.findSome? fun p => if p.state = .replay then (s.lowestPending p).map ({ page := p.id, band := ·, replay := true })
    else none with
  | some item => some item
  | none => s.pages.findSome? fun p =>
    if p.state = .composing || p.state.atPress then (s.lowestPending p).map ({ page := p.id, band := ·, replay := false })
    else none

/-- The page in GATHERING whose composition start the compositor may choose (R117). -/
def State.startable (s : State) : Option Page :=
  match s.gatheringPage with
  | none => none
  | some p =>
    let older := s.pages.takeWhile fun q => q.state ≠ .gathering
    if s.mayStart p && older.all (fun q => q.firstCount = s.bandCountOf q) then some p else none

/-- The compositor takes the band work there is, or is FREE (R116, R118). -/
def selectBand (s : State) : State :=
  match s.bandWork with
  | some item => allocate item s
  | none => { s with compositor := .free }

/-- Selection of a compositor that is not BUSY: replay work, forward work, or a composition start, after which it selects
again at once (R116, R117, R138). -/
def selectWork (s : State) : State :=
  match s.compositor with
  | .busy _ _ => s
  | _ =>
    match s.bandWork with
    | some item => allocate item s
    | none =>
      match s.startable with
      | some p => selectBand (compositionStart p s)
      | none => { s with compositor := .free }

/-! ## Completion (R119) -/

/-- The record state at the completion of band `b` (R119, step 1). -/
def completedState (p : Page) (b : Nat) : BandState :=
  if p.mark b = .filler && (p.state = .printing || p.state = .inPath) then .sentNot else .composed

/-- The completed band's pixels stand in its buffers (R114, R119). -/
def writeBand (s : State) (p : Page) (r : BandRecord) : List Host.Cell :=
  match s.templateOf p, p.cast with
  | some t, some cast =>
    let bytes := bandBytes s t cast r.index
    writePieces (locate 0 bytes.length (bandAreas r.buffers)) bytes s.store
  | _, _ => s.store

/-- A band's composition completes: pixels, record state, first-composition count, and a FREE compositor (R119). -/
def completeBand (item : WorkItem) (s : State) : State :=
  let s := { s with compositor := .free }
  match s.page? item.page with
  | none => s
  | some p =>
    match p.band? item.band with
    | none => s
    | some r =>
      let p' := setBandState item.band (completedState p item.band) p
      setPage { p' with firstCount := if item.band = p.firstCount then p.firstCount + 1 else p.firstCount }
        { s with store := writeBand s p r }

/-! ## Sending's end and the return to REPLAY (R139 to R141) -/

/-- A real band of a page has been sent: the retention limit decides whether its record is kept as SENT marked sent, or
removed with its buffers freed (R140). -/
def retainBand (id b : Nat) (s : State) : State :=
  match s.page? id with
  | none => s
  | some p =>
    match p.band? b with
    | none => s
    | some r =>
      if p.kept + r.buffers.length ≤ Config.retentionLimit then setPage (setBandState b .sent p) s else dropBand id b s

/-- A page's records at its return to REPLAY: each SENT one becomes COMPOSED (R141). -/
def replayRecords (bands : List BandRecord) : List BandRecord :=
  bands.map fun r =>
    match r.state with
    | .sent | .sentNot => { r with state := .composed }
    | .composing | .composed => r

end Sys2Proof.Machine
end

