-- ==== Sys2Proof/Machine/Head.lean ====
section
/-! DEFINITION. The head port (chapter 9): the offer, START and DEMAND, the end of a band's sending, the verdicts, the return
of pages to REPLAY, and purges. -/

namespace Sys2Proof.Machine

def modCounters (f : HeadCounters → HeadCounters) (s : State) : State := { s with headCounters := f s.headCounters }

/-- A press message is ignored with HEAD-PROTOCOL: the counter, and the notice with the message's type byte, the page id it
named and the reason (R149). -/
def headProtocol (type pageId : Nat) (reason : HeadReason) (s : State) : State :=
  notify .headProtocol 0 pageId [.two type, .two reason.code]
    (modCounters (fun c => { c with protocol := bump c.protocol }) s)

/-! ## The offer (R150, R151) -/

/-- Offer a page (R151). -/
def makeOffer (p : Page) (t : TemplateBuffer) (s : State) : State :=
  let attempt := if p.attempt = 0 then 1 else p.attempt
  let s := setPage { p with state := .offered, attempt := attempt, spoiled := false,
                            sendLog := List.replicate t.bandCount .unsent } s
  let s := { s with offer := some { page := p.id, printing := false }, purge := s.purge.filter (· ≠ p.id) }
  notify .sheetOffered p.tag p.id [.two attempt, .two t.bandCount]
    (modCounters (fun c => { c with offered := bump c.offered })
      (emit (.offer p.id t.bandCount t.bandHeight t.width attempt) s))

/-- The head port offers its candidate when the three conditions of R150 hold together. -/
def offerRule (s : State) : State :=
  match s.offer, s.candidate with
  | none, some p =>
    match s.templateOf p with
    | some t => if s.path.length < Config.pathMax && s.meetsLead p then makeOffer p t s else s
    | none => s
  | _, _ => s

/-- What follows in the event of every change: the offer conditions are judged, and a compositor that is not BUSY selects
(R116, R138, R150). -/
def pump (s : State) : State := selectWork (offerRule s)

/-! ## START and DEMAND (R152 to R155) -/

/-- START (R152, R162). -/
def pressStart (id : Nat) (s : State) : State :=
  if s.purge.contains id then s
  else
    match s.offer with
    | none => headProtocol 17 id .noOffer s
    | some slot =>
      if slot.printing then headProtocol 17 id .noOffer s
      else if slot.page ≠ id then headProtocol 17 id .wrongPage s
      else
        modPage id (fun p => { p with state := .printing })
          { s with offer := some { slot with printing := true }, cursor := some 0 }

/-- Begin the sending of band `b` of a page, real with the given pixels or as a filler (R154, R155). -/
def beginSending (p : Page) (t : TemplateBuffer) (b : Nat) (real : Bool) (pixels : List Byte) (s : State) : State :=
  let p := { p with sendLog := p.sendLog.set b (if real then .real else .filler), spoiled := p.spoiled || !real }
  emit (.bandBegin p.id b (t.bandLines b) t.width (!real) (decide (b + 1 = t.bandCount)) p.spoiled pixels)
    { setPage p s with cursor := some (b + 1), sending := some { page := p.id, band := b, real := real } }

/-- A real band is sent from its record's buffers (R153, R154). -/
def sendReal (p : Page) (t : TemplateBuffer) (b : Nat) (r : BandRecord) (s : State) : State :=
  beginSending p t b true (readPieces s.store (locate 0 (t.bandLines b * t.width * 3) (bandAreas r.buffers))) s

/-- A filler is sent in place of a band whose record is COMPOSING (1) or absent (2), and the underrun is counted and posted
(R155). -/
def sendFiller (p : Page) (t : TemplateBuffer) (b : Nat) (record : Nat) (s : State) : State :=
  notify .underrun p.tag p.id [.two p.attempt, .two b, .two record]
    (modCounters (fun c => { c with underruns := bump c.underruns }) (beginSending p t b false (fillerBytes t b) s))

/-- DEMAND (R153, R162). -/
def pressDemand (s : State) : State :=
  match s.printingPage with
  | none => if s.purge.isEmpty then headProtocol 18 0 .notPrinting s else s
  | some p =>
    if s.sending.isSome then headProtocol 18 0 .busy s
    else
      match s.templateOf p with
      | none => s
      | some t =>
        let b := s.cursor.getD 0
        match p.band? b with
        | some r => if r.state = .composed then sendReal p t b r s else sendFiller p t b 1 s
        | none => sendFiller p t b 2 s

/-- A page leaves the offer slot. -/
def leaveSlot (id : Nat) (s : State) : State :=
  match s.offer with
  | some slot => if slot.page = id then { s with offer := none, cursor := none } else s
  | none => s

/-- The last byte of a band message leaves the port (R139, R154, R155). -/
def endSending (x : Sending) (s : State) : State :=
  let s := emit .bandEnd { s with sending := none }
  let s := if x.real then retainBand x.page x.band s else s
  match s.page? x.page with
  | none => s
  | some p =>
    if x.band + 1 = s.bandCountOf p then
      match s.offer with
      | some slot =>
        if slot.page = x.page then
          setPage { p with state := .inPath } { leaveSlot x.page s with path := s.path ++ [x.page] }
        else s
      | none => s
    else s

/-! ## Verdicts (R156 to R160) -/

/-- A band message of one of the pages that is leaving the port is stopped (R156). -/
def stopSending (ids : List Nat) (s : State) : State :=
  match s.sending with
  | some x => if ids.contains x.page then emit .bandAborted { s with sending := none } else s
  | none => s

/-- DONE (R157, R162). -/
def pressDone (id : Nat) (s : State) : State :=
  if s.purge.contains id then { s with purge := s.purge.filter (· ≠ id) }
  else if s.path.head? = some id then
    releasePage 0 id
      (fun p => notify .sheetAccepted p.tag p.id [.two p.attempt, flagItem [p.spoiled], flagItem [p.short]])
      (modCounters (fun c => { c with accepted := bump c.accepted }) { s with path := s.path.tail })
  else if s.path.contains id then headProtocol 19 id .notOldest s
  else headProtocol 19 id .notInPath s

/-- One page of the returned set: it leaves the head port, and enters REPLAY with its next attempt, or fails where that would
exceed max attempts (R106, R141, R159). The numbers count pages returned and pages failed. -/
def returnPage (acc : State × Nat × Nat) (id : Nat) : State × Nat × Nat :=
  let (s, returned, failed) := acc
  match s.page? id with
  | none => acc
  | some p =>
    let s := leaveSlot id { s with path := s.path.filter (· ≠ id) }
    if p.attempt + 1 ≤ p.maxAttempts then
      (setPage { p with state := .replay, attempt := p.attempt + 1, sendLog := [], spoiled := false,
                        bands := replayRecords p.bands } s, returned + 1, failed)
    else
      (releasePage 0 id (fun p => notify .pageFailed p.tag p.id [.two p.attempt, flagItem [p.short], .two p.state.code]) s,
        returned, failed + 1)

/-- The returned set is treated, oldest page first, any band message of one of its pages having been stopped (R159). -/
def returnPages (ids : List Nat) (s : State) : State × Nat × Nat := ids.foldl returnPage (stopSending ids s, 0, 0)

/-- FAULT (R158, R159, R162). -/
def pressFault (id : Nat) (s : State) : State :=
  if s.purge.contains id then { s with purge := s.purge.filter (· ≠ id) }
  else
    match s.page? id with
    | none => headProtocol 20 id .notInPath s
    | some p =>
      if p.state = .inPath || p.state = .printing then
        let ids := ((s.pages.dropWhile (·.id ≠ id)).filter (·.state.atPress)).map (·.id)
        let (s, returned, failed) := returnPages ids (modCounters (fun c => { c with faults := bump c.faults }) s)
        notify .sheetFaulted p.tag id [.two returned, .two failed] s
      else headProtocol 20 id .notInPath s

/-- RESTART (R160). -/
def pressRestart (s : State) : State :=
  let ids := (s.pages.filter (·.state.atPress)).map (·.id)
  let (s, returned, failed) := returnPages ids (modCounters (fun c => { c with restarts := bump c.restarts }) s)
  notify .engineRestart 0 0 [.two returned, .two failed] { s with purge := [] }

/-! ## PURGE at CLEAR (R161) -/

/-- The newest `Config.purgeMax` ids of a purge list (R161). -/
def trimPurge (ids : List Nat) : List Nat := ids.drop (ids.length - Config.purgeMax)

/-- The head port's part of a CLEAR: any band message is stopped, PURGE is sent for each page in the path list and the offer
slot, and the head port lets go of them (R161). -/
def purgePress (s : State) : State :=
  let ids := s.path ++ (s.offer.map (·.page)).toList
  let s := match s.sending with
    | some _ => emit .bandAborted { s with sending := none }
    | none => s
  let s := ids.foldl (fun s id => emit (.purge id) s) s
  { s with purge := trimPurge (s.purge ++ ids), offer := none, path := [], cursor := none }

end Sys2Proof.Machine
end

