-- ==== Sys2Proof/Machine/Queries.lean ====
section
/-! DEFINITION. QUERY, FLAGS CLEAR and NOTICE FLUSH (10.3 to 10.5): judging them, and the contents of each query reply as
the packed items of 11.4, in the order R172 and R173 list them (log entry 10 for the division into items and their widths). -/

namespace Sys2Proof.Machine

/-- A yes or no as an item: 1 for yes, set, asserted, held or open (log entry 10). -/
def boolItem (b : Bool) : Item := .two b.toNat

/-- A string, empty where it is absent. -/
def textItem (t : Option (List Byte)) : Item := .text (t.getD [])

/-- The items of a list of members, each under one item code. -/
def members {α : Type} (code : Nat) (f : α → List Item) (list : List α) : List (Nat × List Item) :=
  list.map fun a => (code, f a)

/-- A time of a reply, which the manual gives neither a unit nor a rounding: whole milliseconds of the reference clock, rounded
down (log entry 30: the model's choice). -/
def inMs (units : Nat) : Nat := units / Config.unitsPerMs

/-! ## CHANNEL (R59, R172) -/

/-- A portrait binding with its key. -/
def bindingItems : Binding → List Item
  | .unbound => [.two 1, .four 0]
  | .opened key _ => [.two 2, .four key]
  | .skipping key => [.two 3, .four key]

/-- For OPEN: the version, lines received, height and expected strip index; zeros otherwise. -/
def openItems (s : State) : Binding → List Item
  | .opened key expected =>
    match s.fillingVersion key with
    | some v => [.two v.number, .two v.lines, .two v.height, .two expected]
    | none => [.two 0, .two 0, .two 0, .two expected]
  | _ => [.two 0, .two 0, .two 0, .two 0]

/-- Whether stalled, with the waiting record's kind, the resource kind and the time stalled in ms. -/
def stallItems (s : State) (ch : Chan) : List Item :=
  match s.waitOf ch with
  | some e => [.two 1, .two (recKindCode s.chans[ch].buffer), .two e.kind.code, .four (inMs (s.now - e.start))]
  | none => [.two 0, .two 0, .two 0, .four 0]

/-- The five counters: alone four bytes each, in a channel's group of STATUS as detail items are (11.4, log entries 10 and
32). -/
def counterItems (item : Nat → Item) (c : Channel) : List Item :=
  [item c.taken, item c.refused, item c.discarded, item c.dropped, item c.stalls]

/-- ACTIVE 1, RESETTING 2 (R172). -/
def modeItem (c : Channel) : Item := .two (if c.mode = .active then 1 else 2)

def channelContents (s : State) (ch : Chan) : List (Nat × List Item) :=
  let c := s.chans[ch]
  [(1, [modeItem c]), (2, [.two c.buffer.length]), (3, [.two c.watermark]), (4, [boolItem c.ready]),
    (5, bindingItems c.binding), (6, openItems s c.binding), (7, stallItems s ch), (8, counterItems .four c),
    (9, [flagItem [c.overflow, c.framing]]), (10, [.four c.resetTag])]

/-! ## ENTRY (R59, R61, R172) -/

/-- A version's items: its role, number, size, lines received, state (filling 1, complete 2, awaiting promotion 3), pin
count, and either the clipped face window, sum and count, or the sum, count, mean, gain and fixed-gain flag. -/
def versionItems (role : Nat) (v : Version) : List Item :=
  let st := match v.state with
    | .filling _ => 1
    | .complete _ _ _ => if role = 1 then 3 else 2
  [.two role, .two v.number, .two v.width, .two v.height, .two v.lines, .two st, .two v.pins] ++
  match v.state with
  | .filling w => [.two w.x, .two w.y, .two w.w, .two w.h, .two v.sum, .two v.count]
  | .complete mean gain _ => [.two v.sum, .two v.count, .two mean, .two gain, flagItem [v.fixedGain.isSome]]

/-- The present versions with their roles: incoming 1, current 2, retiring 3. -/
def Entry.versions (e : Entry) : List (Nat × Version) :=
  [(1, e.incoming), (2, e.current), (3, e.retiring)].filterMap fun r => r.2.map (r.1, ·)

def entryContents (e : Entry) : List (Nat × List Item) :=
  [(1, [.two e.jobId]), (2, [textItem e.name]), (3, [flagItem [e.withholdPhoto, e.withholdName, e.nameAltered]]),
    (4, [.two e.photoState.code])] ++
  members 5 (fun r => versionItems r.1 r.2) e.versions

/-! ## PAGE (R96, R111, R145, R163, R172) -/

/-- The hold timer: running 1, expired 2, not started 3 (6.1). -/
def HoldTimer.code : HoldTimer → Nat
  | .running _ => 1 | .expired => 2 | .notStarted => 3

/-- Whether the timer expires, and the time remaining in ms (R96); zeros for one that does not expire, and for one that has
expired or was not started, of which R96 says nothing (log entry 31: the model's choice). -/
def holdItems (now : Nat) (p : Page) : List Item :=
  match p.holdEnd with
  | some t => [.two 1, .four (inMs (t - now))]
  | none => [.two 0, .four 0]

/-- The keys that keep a page from being ready (R111). -/
def State.blockingKeys (s : State) (p : Page) : List Nat := (p.cells.map (·.2)).filter fun k => !s.subjectReady k

/-- A cell's content: EMPTY 1, PLACEHOLDER-MISSING 2, PLACEHOLDER-WITHHELD 3, PORTRAIT 4 (R100). -/
def CellContent.code : CellContent → Nat
  | .empty => 1 | .missing => 2 | .withheld => 3 | .portrait _ _ => 4

/-- The scaler parameters, in the order of R124 and R125. -/
def scalerItems (p : Scaler) : List Item :=
  [.two p.step, .two p.dw, .two p.dh, .two p.mx, .two p.my, .two p.ox, .two p.oy]

/-- A cell's content, and for PORTRAIT its version number and scaler parameters (R100), zeros otherwise (log entry 10). -/
def contentItems (c : CellContent) : List Item :=
  .two c.code :: match c with
  | .portrait n p => .two n :: scalerItems p
  | _ => List.replicate 8 (.two 0)

/-- A cast record, in the order of R100. -/
def castItems (c : CastRecord) : List Item := [.two c.cell, .four c.key] ++ contentItems c.content ++ [textItem c.text]

/-- A caption's layout: the font, the characters set, x, y, the width and then the setting, WHOLE 1, CLIPPED 2 or OMITTED 3
(R129); zeros for what the record does not hold (log entry 10). -/
def layoutItems : Option CaptionLayout → List Item
  | none => List.replicate 6 (.two 0)
  | some .omitted => List.replicate 5 (.two 0) ++ [.two 3]
  | some (.set clipped f n x y w) => [.two f, .two n, .two x, .two y, .two w, .two (if clipped then 2 else 1)]

/-- A caption record: its text, its layout and its setting (R101, R129). -/
def captionItems (c : CaptionRecord) : List Item := textItem c.text :: layoutItems c.layout

/-- A band record's state, COMPOSING 1, COMPOSED 2 or SENT 3, and its mark, sent 1 or not sent 2 (R134); zeros where there is no
record or no mark (log entry 10). -/
def recordItems : Option BandRecord → List Item
  | none => [.two 0, .two 0]
  | some r => match r.state with
    | .composing => [.two 1, .two 0] | .composed => [.two 2, .two 0]
    | .sent => [.two 3, .two 1] | .sentNot => [.two 3, .two 2]

/-- A band's record state and mark, and whether the band is pending (R145). -/
def bandItems (p : Page) (b : Nat) : List Item := recordItems (p.band? b) ++ [boolItem (p.bandPending b)]

/-- A send log entry: unsent 1, real 2, filler 3 (R147). -/
def SendMark.code : SendMark → Nat
  | .unsent => 1 | .real => 2 | .filler => 3

/-- The items of a page in GATHERING: readiness, the keys that block it, the hold time remaining (R172). -/
def gatheringItems (s : State) (p : Page) : List (Nat × List Item) :=
  (16, [boolItem (s.pageReady p)]) :: members 17 (fun k : Nat => [.four k]) (s.blockingKeys p) ++ [(18, holdItems s.now p)]

/-- The items past composition start (R172), each once: the cast list and the counts of 6.1 stand here (log entry 10). -/
def pastStartItems (s : State) (p : Page) (c : Cast) : List (Nat × List Item) :=
  members 19 castItems c.cells ++ members 20 captionItems c.captions ++
  [(21, [.two c.missing, .two c.withheld, .two c.undersized, .two c.clipped, .two c.omitted]), (22, [.two p.firstCount])] ++
  members 23 (bandItems p) (List.range (s.bandCountOf p)) ++
  [(24, [boolItem (s.meetsLead p)]), (25, [.two p.kept])]

/-- The items of a page at the press (R163). -/
def pressItems (s : State) (p : Page) : List (Nat × List Item) :=
  [(26, [.two p.attempt]), (27, [boolItem p.spoiled]),
    (28, [.two (if p.state = .printing then s.cursor.getD 0 else 0)])] ++
  members 29 (fun m : SendMark => [.two m.code]) p.sendLog

def pageContents (s : State) (p : Page) : List (Nat × List Item) :=
  [(1, [.two p.id]), (2, [.two p.jobId]), (3, [.four p.tag]), (4, [.two p.buffer]), (5, [.two p.maxAttempts]),
    (6, [.two p.hold]), (7, [textItem p.title])] ++
  members 8 (fun c : Nat × Nat => [.two c.1, .four c.2]) p.cells ++
  [(9, [.two p.state.code]), (10, [boolItem p.permit]), (11, [.two p.timer.code]),
    (12, [.two (match p.cast with | some c => c.cause.code | none => 0)]), (13, [boolItem p.short]),
    (14, [.two p.attempt]), (15, [boolItem p.spoiled])] ++
  (if p.state = .gathering then gatheringItems s p else []) ++
  (match p.cast with
   | some c => pastStartItems s p c
   | none => []) ++
  (if p.state.atPress then pressItems s p else [])

/-! ## JOB and TEMPLATE (2.1, R84, R172) -/

/-- OPEN 1, CLOSING 2; the close tag, 0 in OPEN; the entries the job owns. -/
def jobContents (s : State) (j : Job) : List (Nat × List Item) :=
  let (st, tag) := match j.state with
    | .opened => (1, 0)
    | .closing t => (2, t)
  [(1, [.two j.id]), (2, [.four j.base, .four j.limit]), (3, [.two j.target]), (4, [.two st]), (5, [.two j.livePages]),
    (6, [.four tag]), (7, [.two (s.entries.countP (·.jobId = j.id))])]

/-- A colour, each of its values as an item. -/
def rgbItems (c : Rgb) : List Item := [.two c.r.toNat, .two c.g.toNat, .two c.b.toNat]

/-- The slot kind codes (11.3). -/
def SlotKind.code : SlotKind → Nat
  | .fill _ => 1 | .portrait _ => 2 | .caption _ _ _ => 3 | .title _ _ => 4

def slotItems (k : Slot) : List Item :=
  [.two k.index, .two k.kind.code, .two k.rect.x, .two k.rect.y, .two k.rect.w, .two k.rect.h]

/-- The SUPERSEDED buffers of a number. -/
def State.supersededOf (s : State) (n : Nat) : List (Fin 12 × TemplateBuffer) :=
  (List.finRange 12).filterMap fun i =>
    match s.templates[i] with
    | some t => if t.number = n && !t.mapped then some (i, t) else none
    | none => none

def templateContents (s : State) (n : Nat) : List (Nat × List Item) :=
  (match s.mappedBuffer n with
   | none => [(1, [boolItem false])]
   | some i =>
     match s.templates[i] with
     | none => [(1, [boolItem false])]
     | some t =>
       [(1, [boolItem true]), (2, [.two i]), (3, [.two t.pins]),
         (4, [.two t.number, .two t.width, .two t.height, .two t.bandHeight] ++ rgbItems t.background ++
           rgbItems t.placeholder ++ rgbItems t.ink ++ [.two t.slotCount]),
         (5, [flagItem [t.sizeClamped, t.bandDefaulted]]), (6, [.two t.bandCount])] ++
       members 7 (fun c : Nat => [.two c]) t.cellSet ++ members 8 slotItems t.bandIndex ++ [(9, [.four t.tag])]) ++
  members 10 (fun x : Fin 12 × TemplateBuffer => [.two x.1, .two x.2.pins]) (s.supersededOf n)

/-! ## STATUS (R173) -/

/-- Template buffers in each state: FREE, MAPPED, SUPERSEDED. -/
def State.bufferCounts (s : State) : List Item :=
  let all := s.templates.toList
  [.two (all.countP (·.isNone)), .two (all.countP fun t => (t.map (·.mapped)).getD false),
    .two (all.countP fun t => (t.map fun x => !x.mapped).getD false)]

def fontItems (f : Font) : List Item :=
  match f.metrics with
  | some m => [.two 1, .two m.height, .two m.tracking, .two m.blank, .two f.glyphs.length]
  | none => [.two 0, .two 0, .two 0, .two 0, .two 0]

/-- Page records in each state that the queue can hold. -/
def State.pageCounts (s : State) : List Item :=
  [PageState.queued, .gathering, .composing, .offered, .printing, .inPath, .replay].map fun st =>
    .two (s.pages.countP (·.state = st))

def workItems (w : WorkItem) : List Item := [.two w.page, .two w.band, .two (if w.replay then 1 else 2)]

/-- FREE 1, WAITING 2, BUSY 3, with the work item of the latter two. -/
def compositorItems : Compositor → List Item
  | .free => [.two 1, .two 0, .two 0, .two 0]
  | .waiting w _ => .two 2 :: workItems w
  | .busy w _ => .two 3 :: workItems w

/-- Band records in each state, SENT by each mark. -/
def State.bandCounts (s : State) : List Item :=
  let all := s.pages.flatMap (·.bands)
  [BandState.composing, .composed, .sent, .sentNot].map fun st => .two (all.countP (·.state = st))

/-- The offer slot: the page id with its phase, OFFERED 1 or PRINTING 2 (R147); zeros for EMPTY (log entry 10). -/
def offerItems : Option OfferSlot → List Item
  | none => [.two 0, .two 0]
  | some o => [.two o.page, .two (if o.printing then 2 else 1)]

/-- The Sending item: page id, band index and kind, REAL 1 or FILLER 2 (R147); zeros for IDLE (log entry 10). -/
def sendingItems : Option Sending → List Item
  | none => [.two 0, .two 0, .two 0]
  | some x => [.two x.page, .two x.band, .two (if x.real then 1 else 2)]

/-- A class's interval, gate and overrun flag (R173). -/
def gateItems (s : State) (c : NoticeClass) : List Item :=
  let g := s.gates[classIndex c]
  [.two g.interval, boolItem (s.gateOpen c), boolItem g.overrun]

def statusContents (s : State) : List (Nat × List Item) :=
  members 1 (fun ch : Chan =>
    let c := s.chans[ch]
    counterItems .two c ++ [flagItem [c.overflow, c.framing], modeItem c, .two c.watermark]) (List.finRange 4) ++
  [(2, [.two s.waiting.length])] ++
  members 3 (fun e : WaitEntry => [.two e.ch, .two e.kind.code, .two (inMs e.start)]) s.waiting ++
  [(4, [.four s.stallLimit]), (5, [.two s.jobs.length]), (6, [.two s.entries.length]), (7, [.four s.freeCount]),
    (8, [.two (if s.storeLow then 2 else 1)]), (9, [.four s.lowMark]), (10, [boolItem s.lowSeen]),
    (11, [.two s.globalTarget]), (12, s.bufferCounts)] ++
  members 13 (fun i : Fin 2 => fontItems s.fonts[i]) [0, 1] ++
  [(14, [boolItem s.fontLocked]), (15, s.pageCounts), (16, [.two (s.pages.countP (·.state.pinning))]),
    (17, [.two ((s.gatheringPage.map (·.id)).getD 0)]), (18, compositorItems s.compositor),
    (19, [.two s.freeBuffers.length]), (20, s.bandCounts), (21, [.two s.lead]), (22, offerItems s.offer)] ++
  members 23 (fun id : Nat => [.two id]) s.path ++
  [(24, sendingItems s.sending)] ++
  members 25 (fun id : Nat => [.two id]) s.purge ++
  [(26, [.four s.headCounters.offered, .four s.headCounters.accepted, .four s.headCounters.faults,
      .four s.headCounters.restarts, .four s.headCounters.underruns, .four s.headCounters.protocol]),
    (27, [.two s.noticesHeld]), (28, [.two (s.returnQueue.length - s.noticesHeld)]),
    (29, [flagItem (allClasses.map fun c => s.pendingSet.contains c)])] ++
  members 30 (gateItems s) allClasses

/-! ## Judging QUERY (R171) -/

/-- The channel of a number; numbers above 3 are refused before it is used. -/
def chanOf (n : Nat) : Chan := ⟨n % 4, Nat.mod_lt n (by decide)⟩

/-- The query kinds (11.2). -/
def queryKind : Nat → Option ReplyKind
  | 1 => some .status | 2 => some .channel | 3 => some .entry | 4 => some .page | 5 => some .job | 6 => some .template
  | _ => none

/-- The contents of a query's reply, none for ABSENT (R171). -/
def queryContents (s : State) (operand : Nat) : ReplyKind → Option (List (Nat × List Item))
  | .status => some (statusContents s)
  | .channel => some (channelContents s (chanOf operand))
  | .entry => (s.entry? operand).map entryContents
  | .page => (s.page? operand).map (pageContents s)
  | .job => (s.job? operand).map (jobContents s)
  | .template => some (templateContents s operand)
  | .set => none

/-- The reply to a query, gathered from the state as it stands; 0 is the operand of STATUS (R171 to R173). -/
def queryReply (s : State) (tag operand : Nat) (kind : ReplyKind) : Reply :=
  let contents := queryContents s operand kind
  { kind := kind, tag := tag, present := contents.isSome, operand := if kind = .status then 0 else operand
    contents := .items (contents.getD []) }

/-- An operand that names no channel or no template number (R171, step 1). -/
def badOperand (kind : ReplyKind) (operand : Nat) : Bool :=
  (kind = .channel && 3 < operand) || (kind = .template && 7 < operand)

/-- QUERY (R171). -/
def judgeQuery (ch : Chan) (b : List Byte) (s : State) : Verdict :=
  let operand := field b 12 4
  match queryKind (field b 8 1) with
  | none => .refused .badField []
  | some kind =>
    if badOperand kind operand then .refused .badField []
    else if Config.returnEntries ≤ s.returnQueue.length || s.olderWaiter ch .returnSpace then .deferred .returnSpace
    else .taken (storeReply (queryReply s (recTag b) operand kind) s)

/-! ## FLAGS CLEAR and NOTICE FLUSH (R170, R174) -/

/-- Clear the flags that a selection names on one channel: overflow in bit n, framing in bit 4 + n (11.2). -/
def clearChannelFlags (selection : Nat) (s : State) (ch : Chan) : State :=
  modChan ch (fun c => { c with overflow := c.overflow && !bit selection ch, framing := c.framing && !bit selection (4 + ch) }) s

/-- FLAGS CLEAR (R174). -/
def judgeFlagsClear (b : List Byte) (s : State) : Verdict :=
  let selection := field b 8 2
  if 512 ≤ selection then .refused .badField []
  else
    let s := (List.finRange 4).foldl (clearChannelFlags selection) s
    .taken { s with lowSeen := s.lowSeen && !bit selection 8 }

/-- NOTICE FLUSH: every held entry becomes flushed, and the release rule is applied (R170). -/
def judgeFlush (s : State) : Verdict :=
  .taken (releaseRule { s with returnQueue := s.returnQueue.map fun h => { h with flushed := true } })

end Sys2Proof.Machine
end

