-- ==== Sys2Proof/Machine/Portrait.lean ====
section
/-! DEFINITION. Portrait intake (chapter 3): the reservation, the admission order, strips and ends. -/

namespace Sys2Proof.Machine

/-- The blocks of a portrait of source size w × h: ceil(w × h × 3 / 4,096) (R41). -/
def reservation (w h : Nat) : Nat := (w * h * 3 + (Config.blockSize - 1)) / Config.blockSize

/-- The width and the height lie in their ranges (R44, step 2). -/
def sizeLegal (w h : Nat) : Bool :=
  Config.sourceMin ≤ w && w ≤ Config.sourceWidthMax && Config.sourceMin ≤ h && h ≤ Config.sourceHeightMax

/-- What the entry holds keeps the head back: the deferral or refusal of steps 4 to 6, none where they hold (R44). -/
def roleStep (ch : Chan) (key version : Nat) (e : Entry) (s : State) : Option Verdict :=
  if e.incoming.isSome || s.olderWaiter ch (.incomingRole key) then some (.deferred (.incomingRole key))
  else
    match e.current with
    | none => none
    | some c =>
      if version ≤ c.number then some (.refused .staleVersion [])
      else if (0 < c.pins && e.retiring.isSome) || s.olderWaiter ch (.retiringRole key) then
        some (.deferred (.retiringRole key))
      else none

/-- The version record that an admitted head makes (R42, R47, R61). -/
def admittedVersion (b : List Byte) (blocks : List Run) : Version :=
  let w := field b 14 2
  let h := field b 16 2
  { number := field b 12 2, width := w, height := h, blocks := blocks, lines := 0, sum := 0, count := 0
    fixedGain := storedFixedGain (field b 26 2)
    state := .filling (faceWindow w h (field b 18 2) (field b 20 2) (field b 22 2) (field b 24 2))
    pins := 0 }

/-- Admission of a head: the entry, the reservation, the version in the incoming role and the binding, in one event (R47). -/
def admitHead (ch : Chan) (b : List Byte) (j : Job) (s : State) : State :=
  let key := field b 8 4
  let s := withEntry key j.id s
  let (taken, left) := takeBlocks (reservation (field b 14 2) (field b 16 2)) s.freeBlocks
  match s.entry? key with
  | none => s
  | some e =>
    setBinding ch (.opened key 0) (setEntry { e with incoming := some (admittedVersion b taken) } { s with freeBlocks := left })

/-- The last step of the admission order: the blocks (R44, steps 7 and 8). -/
def blocksStep (ch : Chan) (b : List Byte) (j : Job) (s : State) : Verdict :=
  if s.freeCount < reservation (field b 14 2) (field b 16 2) || s.olderWaiter ch .blocks then .deferred .blocks
  else .taken (admitHead ch b j s)

/-- PORTRAIT HEAD: the admission order (R44, R45). -/
def judgeHead (ch : Chan) (b : List Byte) (s : State) : Verdict :=
  let key := field b 8 4
  match s.claim key with
  | .error r => .refused r []
  | .ok j =>
    if !sizeLegal (field b 14 2) (field b 16 2) then .refused .badSize []
    else
      match s.entry? key with
      | none => if s.entryShort ch then .deferred .entry else blocksStep ch b j s
      | some e =>
        match roleStep ch key (field b 12 2) e s with
        | some v => v
        | none => blocksStep ch b j s

/-- An accepted strip: its lines are written, metered and counted, and the expected index rises by 1 (R48, R65). -/
def acceptStrip (ch : Chan) (b : List Byte) (key expected : Nat) (e : Entry) (v : Version) (win : Rect) (s : State) :
    State :=
  let n := field b 14 2
  let pixels := b.drop 16
  let added := meterLines win v.width n v.lines pixels
  let v' := { v with lines := v.lines + n, sum := v.sum + added.1, count := v.count + added.2 }
  let place := locate (v.lines * v.width * 3) (n * v.width * 3) (blockAreas v.blocks)
  setBinding ch (.opened key (expected + 1))
    (setEntry { e with incoming := some v' } { s with store := writePieces place pixels s.store })

/-- A strip of the open portrait is sound: the four conditions of R48. -/
def stripSound (b : List Byte) (expected : Nat) (v : Version) : Bool :=
  let n := field b 14 2
  field b 12 2 = expected && 1 ≤ n && v.lines + n ≤ v.height && b.length = 16 + n * v.width * 3

/-- PORTRAIT STRIP on a channel whose binding is NONE, or OPEN with the strip's key (R48, R49). -/
def judgeStrip (ch : Chan) (b : List Byte) (s : State) : Verdict :=
  match s.chans[ch].binding with
  | .opened key expected =>
    match s.entry? key with
    | none => .refused .noOpenPortrait []
    | some e =>
      match e.incoming with
      | none => .refused .noOpenPortrait []
      | some v =>
        match v.state with
        | .complete _ _ _ => .refused .noOpenPortrait []
        | .filling win =>
          if stripSound b expected v then .taken (acceptStrip ch b key expected e v win s)
          else .taken (failOpen ch key (recTag b) (field b 12 2) (.skipping key) s)
  | _ => .refused .noOpenPortrait []

/-- The target in force for an entry's version: its job's nonzero target, else the global target (R66). -/
def State.targetFor (s : State) (e : Entry) : Nat :=
  match s.job? e.jobId with
  | some j => if j.target = 0 then s.globalTarget else j.target
  | none => s.globalTarget

/-- The version completed at a good END: mean and gain fixed, the END's tag kept (R51, R67 to R69). -/
def completedVersion (target tag : Nat) (v : Version) : Version :=
  let mean := toneMean v.sum v.count
  { v with state := .complete mean (gainAtEnd v.fixedGain target mean) tag }

/-- PORTRAIT END on a channel whose binding is NONE, or OPEN with the END's key (R49 to R51). -/
def judgeEnd (ch : Chan) (b : List Byte) (s : State) : Verdict :=
  match s.chans[ch].binding with
  | .opened key _ =>
    match s.entry? key with
    | none => .refused .noOpenPortrait []
    | some e =>
      match e.incoming.filter Version.filling with
      | none => .refused .noOpenPortrait []
      | some v =>
        let total := field b 12 2
        let s := setBinding ch .unbound s
        if total = v.height && v.lines = v.height then
          .taken (takeRole e (completedVersion (s.targetFor e) (recTag b) v) s)
        else .taken (failPortrait key .lineCount (recTag b) [.two v.height, .two v.lines, .two total] s)
  | _ => .refused .noOpenPortrait []

end Sys2Proof.Machine
end

