-- ==== Sys2Proof/Machine/Waiting.lean ====
section
/-! DEFINITION. How waiting records leave the waiting list without a release (R16, R17), and a channel's entry into RESYNC
(R4). -/

namespace Sys2Proof.Machine

/-- A waiting record is dropped: it is counted as discarded on its channel, STALL-DISCARD is posted with its tag, the
resource kind and the cause, the entry is removed, and an examination follows (R17). -/
def dropWaiting (e : WaitEntry) (b : List Byte) (cause : DropCause) (s : State) : State :=
  wakeUp (notify .stallDiscard (recTag b) (recSubject b)
    [.two e.ch, .two (recKindCode b), .two e.kind.code, .two cause.code]
    (modChan e.ch (fun c => { c with discarded := bump c.discarded }) (unwait e.ch s)))

/-- A waiting record is discarded at its stall limit or dropped by CLEAR: its bytes leave the buffer, and a PORTRAIT HEAD
sets its channel's binding to SKIP with its key (R16, R17, R20). -/
def discardWaiting (cause : DropCause) (s : State) (e : WaitEntry) : State :=
  let b := s.chans[e.ch].front
  let s := dropWaiting e b cause s
  dropFront e.ch b.length (match recKind b, recKey? b with
    | some .portraitHead, some key => setBinding e.ch (.skipping key) s
    | _, _ => s)

/-- A channel that is ACTIVE enters RESYNC: its buffer is emptied, its open portrait is abandoned with the tag, its binding
becomes NONE, its waiting record is dropped, and its ready indication is re-evaluated (R4, R54). -/
def loseStream (ch : Chan) (tag : Nat) (s : State) : State :=
  let stall := s.waitOf ch
  let b := s.chans[ch].front
  let s := modChan ch (fun c => { c with buffer := [], mode := .resync, binding := .unbound, resetTag := tag })
    (abandonOpen ch tag (fun _ => .unbound) s)
  evalReady ch (match stall with
    | some e => dropWaiting e b .resync s
    | none => s)

/-- A channel enters RESYNC with a reset tag; one that is in RESYNC stays there and its reset tag is replaced (R4). -/
def enterResync (ch : Chan) (tag : Nat) (s : State) : State :=
  match s.chans[ch].mode with
  | .resync => modChan ch (fun c => { c with resetTag := tag }) s
  | .active => loseStream ch tag s

/-- CHANNEL RESET (R12). -/
def judgeChannelReset (b : List Byte) (s : State) : Verdict :=
  let n := field b 8 1
  if h : n < 4 then .taken (enterResync ⟨n, h⟩ (recTag b) s) else .refused .badField []

end Sys2Proof.Machine
end

