-- ==== Sys2Proof/Machine/Settings.lean ====
section
/-! DEFINITION. SET (10.6): the fifteen parameters, their ranges, the effects of their changes and the acknowledgement. -/

namespace Sys2Proof.Machine

/-- The pairs of a SET record: parameter code and value (11.2). -/
def setPairs (b : List Byte) : List (Nat × Nat) :=
  (List.range (field b 8 1)).map fun i => (field b (12 + 8 * i) 2, field b (16 + 8 * i) 4)

/-- A parameter code names one of the fifteen parameters (11.2). -/
def paramKnown (code : Nat) : Bool := 1 ≤ code && code ≤ 15

/-- The value applied: the value carried, clamped to the parameter's range (R175). -/
def appliedValue (code value : Nat) : Nat :=
  match code with
  | 1 | 2 | 3 | 4 => clamp Config.watermarkMin Config.watermarkMax value
  | 5 => clamp Config.stallMin Config.stallMax value
  | 6 => clamp Config.targetMin Config.targetMax value
  | 7 => clamp Config.leadMin Config.leadMax value
  | 15 => clamp 0 Config.blockCount value
  | _ => clamp 0 Config.intervalMax value

def setWatermark (ch : Chan) (v : Nat) (s : State) : State := modChan ch (fun c => { c with watermark := v }) s

def setClassInterval (cls : NoticeClass) (v : Nat) (s : State) : State :=
  { s with gates := s.gates.set (classIndex cls) { s.gates[classIndex cls] with interval := v } }

/-- Give a parameter an applied value (R175, 11.2). -/
def applyParam (code v : Nat) (s : State) : State :=
  match code with
  | 1 => setWatermark 0 v s
  | 2 => setWatermark 1 v s
  | 3 => setWatermark 2 v s
  | 4 => setWatermark 3 v s
  | 5 => { s with stallLimit := v }
  | 6 => { s with globalTarget := v }
  | 7 => { s with lead := v }
  | 8 => setClassInterval .channel v s
  | 9 => setClassInterval .roster v s
  | 10 => setClassInterval .portrait v s
  | 11 => setClassInterval .page v s
  | 12 => setClassInterval .sheet v s
  | 13 => setClassInterval .store v s
  | 14 => setClassInterval .table v s
  | 15 => { s with lowMark := v }
  | _ => s

/-- Apply the pairs in list order, each value clamped (R175). -/
def applyPairs (pairs : List (Nat × Nat)) (s : State) : State :=
  pairs.foldl (fun s p => applyParam p.1 (appliedValue p.1 p.2) s) s

/-- The entries of the acknowledgement (R176). -/
def setAcks (pairs : List (Nat × Nat)) : List SetAck :=
  pairs.map fun p =>
    { param := p.1, carried := p.2, applied := appliedValue p.1 p.2, clamped := appliedValue p.1 p.2 ≠ p.2 }

/-- Every waiting entry that has reached the stall limit is discarded (R16), oldest first, as R20 has it for a CLEAR (log entry
20: the model's choice, since R16 and R175 give no order among them). -/
def discardDue (s : State) : State := (s.waiting.filter s.stallDue).foldl (discardWaiting .limit) s

/-- The effects of the changes from the settings of `old`, in the order of the table of R175: ready indications, the stall
limit, the lead, the intervals and the store low mark. -/
def settingEffects (old : State) (pairs : List (Nat × Nat)) (tag : Nat) (s : State) : State :=
  let s := (List.finRange 4).foldl (fun s ch => evalReady ch s) s
  let s := if s.stallLimit = old.stallLimit then s else discardDue s
  let s := if s.lead = old.lead then s else pump s
  let s := if pairs.any (fun p => 8 ≤ p.1 && p.1 ≤ 14) then releaseRule s else s
  if s.lowMark = old.lowMark then s else judgeStore tag s

/-- A taken SET: its pairs, their effects, and then its acknowledgement (R175, R176), whose status byte is
PRESENT by the model's choice (log entry 34). -/
def takeSet (pairs : List (Nat × Nat)) (tag : Nat) (s : State) : State :=
  storeReply { kind := .set, tag := tag, present := true, operand := 0, contents := .settings (setAcks pairs) }
    (settingEffects s pairs tag (applyPairs pairs s))

/-- SET (R175, R180). -/
def judgeSet (b : List Byte) (s : State) : Verdict :=
  let count := field b 8 1
  if 16 < count || b.length ≠ 12 + 8 * count || !(setPairs b).all (fun p => paramKnown p.1) then .refused .badField []
  else .taken (takeSet (setPairs b) (recTag b) s)

end Sys2Proof.Machine
end

