-- ==== Sys2Proof/Machine/Link.lean ====
section
/-! DEFINITION. The spool link interface and the record decoder (chapter 1): frames, the decoder's checks, dispatch, skipping,
examinations of the waiting list, CLEAR, and the order in which what one event makes possible comes about. -/

namespace Sys2Proof.Machine

/-! ## Frames (R1, R3, R5) -/

/-- A frame overflows (R3). -/
def overflowFrame (ch : Chan) (s : State) : State :=
  enterResync ch 0 (notify .overflow 0 ch [.two ch]
    (modChan ch (fun c => { c with dropped := bump c.dropped, overflow := true }) s))

/-- A SYNC frame ends RESYNC (R5). -/
def endResync (ch : Chan) (payload : List Byte) (s : State) : State :=
  let tag := s.chans[ch].resetTag
  evalReady ch (notify .resyncDone tag ch [.two ch]
    (modChan ch (fun c => { c with buffer := payload, mode := .active, resetTag := 0 }) s))

/-- A link frame arrives (R1, R3, R5). -/
def frameArrives (ch : Chan) (sync : Bool) (payload : List Byte) (s : State) : State :=
  match s.chans[ch].mode with
  | .active =>
    if payload.length ≤ s.chans[ch].space then
      evalReady ch (modChan ch (fun c => { c with buffer := c.buffer ++ payload }) s)
    else overflowFrame ch s
  | .resync =>
    if sync then endResync ch payload s else modChan ch (fun c => { c with dropped := bump c.dropped }) s

/-- A framing error at the front of a channel (R7). -/
def framingError (ch : Chan) (len : Nat) (s : State) : State :=
  judgeStore 0 (enterResync ch 0 (notify .framing 0 ch [.two ch, .two len] (modChan ch (fun c => { c with framing := true }) s)))

/-! ## CLEAR (R20, R38, R57, R84, R90, R108, R144, R161) -/

/-- The job table, the directory, the block pool, the template table, the page queue, the compositor and the band queue are
emptied (R38, R57, R84, R108, R144). -/
def emptyTables (s : State) : State :=
  { s with
    jobs := []
    entries := []
    freeBlocks := [{ first := 0, count := Config.blockCount }]
    templates := Vector.replicate 12 none
    pages := []
    compositor := .free
    freeBuffers := List.range Config.bandBufferCount }

/-- Every open portrait is abandoned, channel 0 first (R20, R54). -/
def abandonAll (tag : Nat) (s : State) : State :=
  (List.finRange 4).foldl (fun s ch => abandonOpen ch tag .skipping s) s

/-- Every waiting record is dropped, oldest first (R20). -/
def dropAllWaiting (s : State) : State := s.waiting.foldl (discardWaiting .clear) s

/-- CLEAR (R20). -/
def judgeClear (b : List Byte) (s : State) : Verdict :=
  .taken (wakeUp (emptyTables (dropAllWaiting (abandonAll (recTag b) (purgePress s)))))

/-! ## The decoder (R8, R9) -/

/-- The decoder's checks: the kind of a record that passes them, or the reason for its refusal (R8). -/
def decoderCheck (b : List Byte) : Except Reason RecordKind :=
  match recKind b with
  | none => .error .unknownKind
  | some kind => if recFlags b ≠ 0 || b.length < kind.fixedPart then .error .badField else .ok kind

/-- The owner of each kind judges the record (R9). -/
def judgeOwner (ch : Chan) (kind : RecordKind) (b : List Byte) (s : State) : Verdict :=
  match kind with
  | .jobOpen => judgeJobOpen ch b s
  | .jobClose => judgeJobClose b s
  | .roster => judgeRoster ch b s
  | .portraitHead => judgeHead ch b s
  | .portraitStrip => judgeStrip ch b s
  | .portraitEnd => judgeEnd ch b s
  | .template => judgeTemplate ch b s
  | .font => judgeFont ch b s
  | .glyph => judgeGlyph ch b s
  | .page => judgePage ch b s
  | .pageCancel => judgePageCancel b s
  | .set => judgeSet b s
  | .query => judgeQuery ch b s
  | .flagsClear => judgeFlagsClear b s
  | .noticeFlush => judgeFlush s
  | .channelReset => judgeChannelReset b s
  | .clear => judgeClear b s

/-- The decoder's checks, then the owner (R8, R9). -/
def judgeRecord (ch : Chan) (b : List Byte) (s : State) : Verdict :=
  match decoderCheck b with
  | .error reason => .refused reason []
  | .ok kind => judgeOwner ch kind b s

/-- A refused PORTRAIT HEAD sets its channel's binding to SKIP with its key (R11); a record too short to carry a key leaves it
(log entry 11). -/
def skipRefusedHead (ch : Chan) (b : List Byte) (s : State) : State :=
  match recKind b, recKey? b with
  | some .portraitHead, some key => setBinding ch (.skipping key) s
  | _, _ => s

/-- What the channel does with its front record at its owner's verdict (R9, R13); the store low state is judged once, after
the record's whole effect (R55). -/
def conclude (ch : Chan) (b : List Byte) (v : Verdict) (s : State) : State :=
  judgeStore (recTag b) (match v with
    | .taken t => dropFront ch b.length (modChan ch (fun c => { c with taken := bump c.taken }) (unwait ch t))
    | .refused reason extra =>
      dropFront ch b.length (skipRefusedHead ch b
        (notify .refused (recTag b) (recSubject b) ([.two ch, .two (recKindCode b), .two reason.code] ++ extra)
          (modChan ch (fun c => { c with refused := bump c.refused }) (unwait ch s))))
    | .deferred kind => deferRecord ch kind s)

/-! ## First presentation (R6, R10, R11) -/

/-- A PORTRAIT HEAD ends the portrait that is open on its channel, whatever key it names, and leaves the binding NONE (R43).
The failure is an event of its own (R53): the store low state is judged, and what it makes possible at the press and at the
compositor comes about, before the head is judged (R55, R116, R150). -/
def endOpenPortrait (ch : Chan) (b : List Byte) (s : State) : State :=
  match s.chans[ch].binding with
  | .opened key _ => pump (judgeStore (recTag b) (failOpen ch key (recTag b) 0 .unbound s))
  | _ => s

/-- A STRIP or END of another key fails the portrait that is open on its channel with STRIP-ORDER and leaves the binding NONE
(R49); `found` is the strip index found, 0 for an END. -/
def breakByKey (ch : Chan) (found : Nat) (b : List Byte) (s : State) : State :=
  match s.chans[ch].binding with
  | .opened key _ => if field b 8 4 = key then s else failOpen ch key (recTag b) found .unbound s
  | _ => s

/-- What a PORTRAIT record does, at its first presentation, to an open portrait that it does not continue (R43, R49). -/
def breakOpen (ch : Chan) (kind : RecordKind) (b : List Byte) (s : State) : State :=
  match kind with
  | .portraitHead => endOpenPortrait ch b s
  | .portraitStrip => breakByKey ch (field b 12 2) b s
  | .portraitEnd => breakByKey ch 0 b s
  | _ => s

/-- A HEAD that the decoder refuses ends the open portrait too, where it carries a key: the binding that R11 then gives the
channel is the head's, and no portrait stays open on it (log entry 11). -/
def breakByRefused (ch : Chan) (b : List Byte) (s : State) : State :=
  match recKind b, recKey? b with
  | some .portraitHead, some _ => endOpenPortrait ch b s
  | _, _ => s

/-- A STRIP or END of the skipped key is discarded; the END ends the skip (R11). -/
def discardSkipped (ch : Chan) (b : List Byte) (s : State) : State :=
  let s := dropFront ch b.length (modChan ch (fun c => { c with discarded := bump c.discarded }) s)
  if recKind b = some .portraitEnd then setBinding ch .unbound s else s

/-- A record that is neither a STRIP nor an END of the skipped key ends a skip (R11). -/
def endSkip (ch : Chan) (b : List Byte) (s : State) : State :=
  match s.chans[ch].binding with
  | .skipping k => if carriesSkipKey b k then s else setBinding ch .unbound s
  | _ => s

/-- The record is discarded by the skip that its channel is in (R11). -/
def State.skips (s : State) (ch : Chan) (b : List Byte) : Bool :=
  match s.chans[ch].binding with
  | .skipping k => carriesSkipKey b k
  | _ => false

/-- The front record's first presentation: the decoder's checks, the skip, an open portrait that it breaks, and its owner
(R8, R9, R11, R43, R49). -/
def presentRecord (ch : Chan) (b : List Byte) (s : State) : State :=
  match decoderCheck b with
  | .error reason => conclude ch b (.refused reason []) (breakByRefused ch b (endSkip ch b s))
  | .ok kind =>
    if s.skips ch b then discardSkipped ch b s
    else
      let s := breakOpen ch kind b (endSkip ch b s)
      conclude ch b (judgeOwner ch kind b s) s

/-- A channel's front record is dispatched, or its framing error found (R6, R7). -/
def dispatchFront (ch : Chan) (s : State) : State :=
  match s.chans[ch].frontLength with
  | none => s
  | some len => if badLength len then framingError ch len s else presentRecord ch s.chans[ch].front s

/-! ## Examinations (R15) -/

/-- One entry of a walk: passed over where its kind is noted or it has left the list, else presented again. Answers the noted
kinds. -/
def examineEntry (acc : List Resource × State) (ch : Chan) : List Resource × State :=
  let (noted, s) := acc
  match s.waitOf ch with
  | none => acc
  | some e =>
    if noted.contains e.kind then acc
    else
      let b := s.chans[ch].front
      let s := pump (conclude ch b (judgeRecord ch b s) s)
      match s.waitOf ch with
      | some e => (e.kind :: noted, s)
      | none => (noted, s)

/-- An examination of the waiting list: one walk from the oldest entry to the youngest (R15). The channels of the records taken or
refused in it present their next records after the walk has ended (log entry 15: the model's choice, since R15 does not say when
in the walk). -/
def examine (s : State) : State :=
  ((s.waiting.map (·.ch)).foldl examineEntry ([], { s with wake := false })).2

/-! ## What follows in one step -/

/-- What may come about next without a further command: an examination that a release has caused, or the presentation of a
channel's front record. Between these the manual gives no order (R10; log entry 1). -/
inductive Task where
  | examination
  | dispatch (ch : Chan)
  deriving DecidableEq, Repr

def State.tasks (s : State) : List Task :=
  (if s.wake && !s.waiting.isEmpty then [.examination] else []) ++ ((List.finRange 4).filter s.presents).map .dispatch

def runTask : Task → State → State
  | .examination, s => examine s
  | .dispatch ch, s => pump (dispatchFront ch s)

/-- Run tasks, in the order the choices give, until none remains. -/
def settleFor : Nat → State → State
  | 0, s => { s with wake := false }
  | n + 1, s =>
    match choose s.tasks s with
    | none => { s with wake := false }
    | some (t, s) => settleFor n (runTask t s)

/-- The bytes that the channel buffers hold. -/
def State.buffered (s : State) : Nat := (s.chans.toList.map (·.buffer.length)).sum

/-- Run tasks until none remains. Every dispatch takes at least 4 bytes from a buffer or begins a stall, and an examination
runs only where a release has happened since the last, so the fuel is never used up. -/
def settle (s : State) : State := settleFor (s.buffered + 16) s

/-- What follows the effect of an event: in the same event the store low state is judged (R55), the offer conditions are
judged and the compositor selects (R116, R150); then comes what the event makes possible (R14). -/
def follow (s : State) : State := settle (pump (judgeStore 0 s))

/-- One event at the part, with what follows it. -/
def event (f : State → State) (s : State) : State := follow (f s)

/-- A command that reaches the part: it clears what the last command sent, and is lost while the reset input is low (11.7,
log entry 12). -/
def whenUp (f : State → State) (s : State) : State :=
  if s.inReset then { s with out := [] } else f { s with out := [] }

/-- The bytes of a record reach its channel in frames of up to 256 bytes without SYNC (log entry 3). -/
def deliver (ch : Chan) (bytes : List Byte) (s : State) : State :=
  (pieces bytes.length bytes).foldl (fun s p => event (frameArrives ch false p) s) s

end Sys2Proof.Machine
end

