-- ==== Sys2Proof/Machine/Press.lean ====
section
/-! DEFINITION. The meanings of the messages from the press (9.2). -/

namespace Sys2Proof.Machine

/-- START (R152, R162). -/
def execStart (pageId : Nat) (s : State) : Host.Outcome State Fault Refusal := .next (whenUp (event (pressStart pageId)) s)

/-- DEMAND (R153, R162). -/
def execDemand (s : State) : Host.Outcome State Fault Refusal := .next (whenUp (event pressDemand) s)

/-- DONE (R157, R162). -/
def execDone (pageId : Nat) (s : State) : Host.Outcome State Fault Refusal := .next (whenUp (event (pressDone pageId)) s)

/-- FAULT (R158, R162). -/
def execFault (pageId : Nat) (s : State) : Host.Outcome State Fault Refusal := .next (whenUp (event (pressFault pageId)) s)

/-- RESTART (R160). -/
def execRestart (s : State) : Host.Outcome State Fault Refusal := .next (whenUp (event pressRestart) s)

/-- BAD_MESSAGE: a type byte that is none of the five is ignored with HEAD-PROTOCOL, reason BAD-MESSAGE (R149, R182). The page
id is the one the message's page id field holds, and an id that stands in the purge list changes nothing, since R162 has no
row for an unknown type (log entry 13: the model's choices). -/
def execBadMessage (type pageId : Nat) (s : State) : Host.Outcome State Fault Refusal :=
  .next (whenUp (event (headProtocol type pageId .badMessage)) s)

end Sys2Proof.Machine
end

