-- ==== Sys2Proof/Machine/Records.lean ====
section
/-! DEFINITION. The meanings of LINK_FRAME and of the record commands. A record command is the arrival of the whole record on
its channel (log entry 3); what the record then does is decided by the decoder and its owner. -/

namespace Sys2Proof.Machine

/-- LINK_FRAME (R1, R3, R5). -/
def execLinkFrame (ch : Chan) (sync : Bool) (payload : List Byte) (s : State) : Host.Outcome State Fault Refusal :=
  .next (whenUp (event (frameArrives ch sync payload)) s)

/-- UNKNOWN_KIND (R8). -/
def execUnknownKind (ch : Chan) (kind tag : Nat) (body : List Byte) (s : State) : Host.Outcome State Fault Refusal :=
  .next (whenUp (deliver ch (recordBytes kind tag body)) s)

/-- JOB_OPEN (R22, R23). -/
def execJobOpen (ch : Chan) (tag jobId target base limit : Nat) (s : State) : Host.Outcome State Fault Refusal :=
  .next (whenUp (deliver ch (jobOpenRecord tag jobId target base limit)) s)

/-- JOB_CLOSE (R25, R26). -/
def execJobClose (ch : Chan) (tag jobId : Nat) (s : State) : Host.Outcome State Fault Refusal :=
  .next (whenUp (deliver ch (jobCloseRecord tag jobId)) s)

/-- ROSTER (R30). -/
def execRoster (ch : Chan) (tag key publication : Nat) (name : List Byte) (s : State) : Host.Outcome State Fault Refusal :=
  .next (whenUp (deliver ch (rosterRecord tag key publication name)) s)

/-- PORTRAIT_HEAD (R43, R44). -/
def execPortraitHead (ch : Chan) (tag key version width height faceX faceY faceW faceH fixedGain : Nat) (s : State) :
    Host.Outcome State Fault Refusal :=
  .next (whenUp (deliver ch (portraitHeadRecord tag key version width height faceX faceY faceW faceH fixedGain)) s)

/-- PORTRAIT_STRIP (R48, R49). -/
def execPortraitStrip (ch : Chan) (tag key index lines : Nat) (pixels : List Byte) (s : State) :
    Host.Outcome State Fault Refusal :=
  .next (whenUp (deliver ch (portraitStripRecord tag key index lines pixels)) s)

/-- PORTRAIT_END (R50, R51). -/
def execPortraitEnd (ch : Chan) (tag key total : Nat) (s : State) : Host.Outcome State Fault Refusal :=
  .next (whenUp (deliver ch (portraitEndRecord tag key total)) s)

/-- TEMPLATE (R74, R80). -/
def execTemplate (ch : Chan) (tag number width height bandHeight : Nat) (background placeholder ink : Rgb)
    (slots : List SlotFields) (s : State) : Host.Outcome State Fault Refusal :=
  .next (whenUp (deliver ch (templateRecord tag number width height bandHeight background placeholder ink slots)) s)

/-- FONT (R85). -/
def execFont (ch : Chan) (tag number height tracking blank : Nat) (s : State) : Host.Outcome State Fault Refusal :=
  .next (whenUp (deliver ch (fontRecord tag number height tracking blank)) s)

/-- GLYPH (R86). -/
def execGlyph (ch : Chan) (tag number code advance : Nat) (bitmap : List Byte) (s : State) :
    Host.Outcome State Fault Refusal :=
  .next (whenUp (deliver ch (glyphRecord tag number code advance bitmap)) s)

/-- PAGE (R91, R92). -/
def execPage (ch : Chan) (tag pageId hold jobId number attempts : Nat) (title : List Byte) (keys : List Nat) (s : State) :
    Host.Outcome State Fault Refusal :=
  .next (whenUp (deliver ch (pageRecord tag pageId hold jobId number attempts title keys)) s)

/-- PAGE_CANCEL (R104). -/
def execPageCancel (ch : Chan) (tag pageId : Nat) (s : State) : Host.Outcome State Fault Refusal :=
  .next (whenUp (deliver ch (pageCancelRecord tag pageId)) s)

/-- SET_READY_WATERMARK: parameters 1 to 4 (R2, R175). -/
def execSetReadyWatermark (ch : Chan) (tag : Nat) (target : Chan) (value : Nat) (s : State) :
    Host.Outcome State Fault Refusal :=
  .next (whenUp (deliver ch (setRecord tag [(target.val + 1, value)])) s)

/-- SET_STALL_LIMIT: parameter 5 (R16, R175). -/
def execSetStallLimit (ch : Chan) (tag value : Nat) (s : State) : Host.Outcome State Fault Refusal :=
  .next (whenUp (deliver ch (setRecord tag [(5, value)])) s)

/-- SET_GLOBAL_TARGET: parameter 6 (R66, R175). -/
def execSetGlobalTarget (ch : Chan) (tag value : Nat) (s : State) : Host.Outcome State Fault Refusal :=
  .next (whenUp (deliver ch (setRecord tag [(6, value)])) s)

/-- SET_LEAD: parameter 7 (R142, R175). -/
def execSetLead (ch : Chan) (tag value : Nat) (s : State) : Host.Outcome State Fault Refusal :=
  .next (whenUp (deliver ch (setRecord tag [(7, value)])) s)

/-- SET_INTERVAL: parameters 8 to 14 (R167, R175). -/
def execSetInterval (ch : Chan) (tag : Nat) (cls : NoticeClass) (value : Nat) (s : State) :
    Host.Outcome State Fault Refusal :=
  .next (whenUp (deliver ch (setRecord tag [(intervalParam cls, value)])) s)

/-- SET_STORE_LOW_MARK: parameter 15 (R56, R175). -/
def execSetStoreLowMark (ch : Chan) (tag value : Nat) (s : State) : Host.Outcome State Fault Refusal :=
  .next (whenUp (deliver ch (setRecord tag [(15, value)])) s)

/-- QUERY_STATUS: query kind 1 (R171, R173). -/
def execQueryStatus (ch : Chan) (tag : Nat) (s : State) : Host.Outcome State Fault Refusal :=
  .next (whenUp (deliver ch (queryRecord tag 1 0)) s)

/-- QUERY_CHANNEL: query kind 2 (R171, R172). -/
def execQueryChannel (ch : Chan) (tag channel : Nat) (s : State) : Host.Outcome State Fault Refusal :=
  .next (whenUp (deliver ch (queryRecord tag 2 channel)) s)

/-- QUERY_ENTRY: query kind 3 (R171, R172). -/
def execQueryEntry (ch : Chan) (tag key : Nat) (s : State) : Host.Outcome State Fault Refusal :=
  .next (whenUp (deliver ch (queryRecord tag 3 key)) s)

/-- QUERY_PAGE: query kind 4 (R171, R172). -/
def execQueryPage (ch : Chan) (tag pageId : Nat) (s : State) : Host.Outcome State Fault Refusal :=
  .next (whenUp (deliver ch (queryRecord tag 4 pageId)) s)

/-- QUERY_JOB: query kind 5 (R171, R172). -/
def execQueryJob (ch : Chan) (tag jobId : Nat) (s : State) : Host.Outcome State Fault Refusal :=
  .next (whenUp (deliver ch (queryRecord tag 5 jobId)) s)

/-- QUERY_TEMPLATE: query kind 6 (R171, R172). -/
def execQueryTemplate (ch : Chan) (tag number : Nat) (s : State) : Host.Outcome State Fault Refusal :=
  .next (whenUp (deliver ch (queryRecord tag 6 number)) s)

/-- FLAGS_CLEAR_OVERFLOW: selection bits 0 to 3 (R174). -/
def execFlagsClearOverflow (ch : Chan) (tag : Nat) (target : Chan) (s : State) : Host.Outcome State Fault Refusal :=
  .next (whenUp (deliver ch (flagsClearRecord tag (2 ^ target.val))) s)

/-- FLAGS_CLEAR_FRAMING: selection bits 4 to 7 (R174). -/
def execFlagsClearFraming (ch : Chan) (tag : Nat) (target : Chan) (s : State) : Host.Outcome State Fault Refusal :=
  .next (whenUp (deliver ch (flagsClearRecord tag (2 ^ (4 + target.val)))) s)

/-- FLAGS_CLEAR_STORE_LOW_SEEN: selection bit 8 (R174). -/
def execFlagsClearStoreLowSeen (ch : Chan) (tag : Nat) (s : State) : Host.Outcome State Fault Refusal :=
  .next (whenUp (deliver ch (flagsClearRecord tag 256)) s)

/-- NOTICE_FLUSH (R170). -/
def execNoticeFlush (ch : Chan) (tag : Nat) (s : State) : Host.Outcome State Fault Refusal :=
  .next (whenUp (deliver ch (noticeFlushRecord tag)) s)

/-- CHANNEL_RESET (R12). -/
def execChannelReset (ch : Chan) (tag target : Nat) (s : State) : Host.Outcome State Fault Refusal :=
  .next (whenUp (deliver ch (channelResetRecord tag target)) s)

/-- CLEAR (R20). -/
def execClear (ch : Chan) (tag : Nat) (s : State) : Host.Outcome State Fault Refusal :=
  .next (whenUp (deliver ch (clearRecord tag)) s)

end Sys2Proof.Machine
end

