-- ==== Sys2Proof/Machine/Reset.lean ====
section
/-! DEFINITION. The meanings of the two levels of the reset input (11.7). -/

namespace Sys2Proof.Machine

/-- MASTER_RESET: the reset input goes low, every block takes its reset values and the part stays in reset; a band message
leaving the port is marked as aborted (R21, R39, R58, R73, R90, R109, R113, R144, R147, R177, R182). The environment's own
fields and the clock stand (log entry 2). -/
def masterReset (s : State) : State :=
  { State.reset with
    pending := s.pending, order := s.order, now := s.now, inReset := true
    out := if s.sending.isSome then [.bandAborted] else [] }

/-- MASTER_RESET. -/
def execMasterReset (s : State) : Host.Outcome State Fault Refusal := .next (masterReset s)

/-- The reset input returns high: the part begins from the reset state and sends one READY frame with the reset mark (R181,
11.7). Where the input is high already, nothing happens (log entry 12). -/
def leaveReset (s : State) : State :=
  if s.inReset then sendReady true { s with inReset := false, out := [] } else { s with out := [] }

/-- RESET_INPUT_HIGH. -/
def execResetInputHigh (s : State) : Host.Outcome State Fault Refusal := .next (leaveReset s)

end Sys2Proof.Machine
end

