-- ==== Sys2Proof/Machine/Timers.lean ====
section
/-! DEFINITION. The meanings of the part's own ends and expiries, and of a tick of the reference clock. An end that finds
nothing in progress, or an expiry that finds no timer running, changes nothing (log entry 14). An expiry carries the clock to
the time at which it falls due (log entry 2). -/

namespace Sys2Proof.Machine

/-- The compositor's band completes (R119). -/
def compositionComplete (s : State) : State :=
  match s.compositor with
  | .busy item _ => completeBand item s
  | _ => s

/-- BAND_COMPOSITION_COMPLETE (R119). -/
def execBandCompositionComplete (s : State) : Host.Outcome State Fault Refusal :=
  .next (whenUp (event compositionComplete) s)

/-- The last byte of a band message leaves the port, where one is leaving (R154, R155). -/
def sendingEnd (s : State) : State :=
  match s.sending with
  | some x => endSending x s
  | none => s

/-- BAND_SENDING_END (R154). -/
def execBandSendingEnd (s : State) : Host.Outcome State Fault Refusal := .next (whenUp (event sendingEnd) s)

/-- The transfer of a return record ends: the return channel is IDLE and the release rule is applied (R168). -/
def transferEnd (s : State) : State :=
  match s.returnChannel with
  | some _ => releaseRule (emit .returnEnd { s with returnChannel := none })
  | none => s

/-- RETURN_TRANSFER_END (R168). -/
def execReturnTransferEnd (s : State) : Host.Outcome State Fault Refusal := .next (whenUp (event transferEnd) s)

/-- The clock reaches a time, or stands past it. -/
def advanceTo (t : Nat) (s : State) : State := { s with now := max s.now t }

/-- The stall limit of a channel's waiting entry expires: the waiting record is discarded (R16, R17). -/
def stallExpiry (ch : Chan) (s : State) : State :=
  match s.waitOf ch with
  | some e => discardWaiting .limit (advanceTo (e.start + s.stallLimit * Config.unitsPerMs) s) e
  | none => s

/-- STALL_LIMIT_EXPIRY (R16). -/
def execStallLimitExpiry (ch : Chan) (s : State) : Host.Outcome State Fault Refusal :=
  .next (whenUp (event (stallExpiry ch)) s)

/-- The hold timer of the page in GATHERING expires: its start permit is set (R96). -/
def holdEnds (s : State) : State :=
  match s.gatheringPage with
  | none => s
  | some p =>
    match p.holdEnd with
    | some t => setPage { p with permit := true, timer := .expired } (advanceTo t s)
    | none => s

/-- HOLD_EXPIRY (R96). -/
def execHoldExpiry (s : State) : Host.Outcome State Fault Refusal := .next (whenUp (event holdEnds) s)

/-- A class's interval expires: its gate opens and the release rule is applied (R167, R168). -/
def gateExpires (cls : NoticeClass) (s : State) : State :=
  match s.gates[classIndex cls].last with
  | some t => releaseRule (advanceTo (t + s.gates[classIndex cls].interval) s)
  | none => s

/-- GATE_EXPIRY (R167). -/
def execGateExpiry (cls : NoticeClass) (s : State) : Host.Outcome State Fault Refusal :=
  .next (whenUp (event (gateExpires cls)) s)

/-! ## A tick (log entry 2) -/

/-- A timer that has reached its time: the stall limit of a channel's entry, the hold timer, or a gate that lets a held entry
go. -/
inductive Due where
  | stall (ch : Chan)
  | hold
  | release
  deriving DecidableEq, Repr

/-- The timers that have reached their times. -/
def State.due (s : State) : List Due :=
  (s.waiting.filter s.stallDue).map (fun e => .stall e.ch) ++
  (if ((s.gatheringPage.bind (·.holdEnd)).map (fun t => decide (t ≤ s.now))).getD false then [.hold] else []) ++
  (if s.returnChannel.isNone && (s.pickReleasable [] s.returnQueue).isSome then [.release] else [])

def runDue : Due → State → State
  | .stall ch, s => event (stallExpiry ch) s
  | .hold, s => event holdEnds s
  | .release, s => event releaseRule s

/-- One tick: a timer that has reached its time expires, or the clock advances by one unit. In reset only the clock advances. -/
def tick (s : State) : State :=
  let s := { s with out := [] }
  if s.inReset then { s with now := s.now + 1 }
  else
    match choose s.due s with
    | some (d, s) => runDue d s
    | none => { s with now := s.now + 1 }

end Sys2Proof.Machine
end

