-- ==== Sys2Proof/Machine/Dispatch.lean ====
section
/-! DEFINITION. The meaning of each command: one arm for each constructor of Instr. -/

namespace Sys2Proof.Machine

def exec (i : Instr) (s : State) : Host.Outcome State Fault Refusal :=
  match i with
  | .linkFrame ch sync payload => Sys2Proof.Machine.execLinkFrame ch sync payload s
  | .masterReset => Sys2Proof.Machine.execMasterReset s
  | .unknownKind ch kind tag body => Sys2Proof.Machine.execUnknownKind ch kind tag body s
  | .jobOpen ch tag jobId target base limit => Sys2Proof.Machine.execJobOpen ch tag jobId target base limit s
  | .jobClose ch tag jobId => Sys2Proof.Machine.execJobClose ch tag jobId s
  | .roster ch tag key publication name => Sys2Proof.Machine.execRoster ch tag key publication name s
  | .portraitHead ch tag key version w h fx fy fw fh g => Sys2Proof.Machine.execPortraitHead ch tag key version w h fx fy fw fh g s
  | .portraitStrip ch tag key index lines pixels => Sys2Proof.Machine.execPortraitStrip ch tag key index lines pixels s
  | .portraitEnd ch tag key total => Sys2Proof.Machine.execPortraitEnd ch tag key total s
  | .template ch tag n w h bh bg ph ink slots => Sys2Proof.Machine.execTemplate ch tag n w h bh bg ph ink slots s
  | .font ch tag number height tracking blank => Sys2Proof.Machine.execFont ch tag number height tracking blank s
  | .glyph ch tag number code advance bitmap => Sys2Proof.Machine.execGlyph ch tag number code advance bitmap s
  | .page ch tag id hold job n attempts title keys => Sys2Proof.Machine.execPage ch tag id hold job n attempts title keys s
  | .pageCancel ch tag pageId => Sys2Proof.Machine.execPageCancel ch tag pageId s
  | .setReadyWatermark ch tag target value => Sys2Proof.Machine.execSetReadyWatermark ch tag target value s
  | .setStallLimit ch tag value => Sys2Proof.Machine.execSetStallLimit ch tag value s
  | .setGlobalTarget ch tag value => Sys2Proof.Machine.execSetGlobalTarget ch tag value s
  | .setLead ch tag value => Sys2Proof.Machine.execSetLead ch tag value s
  | .setInterval ch tag cls value => Sys2Proof.Machine.execSetInterval ch tag cls value s
  | .setStoreLowMark ch tag value => Sys2Proof.Machine.execSetStoreLowMark ch tag value s
  | .queryStatus ch tag => Sys2Proof.Machine.execQueryStatus ch tag s
  | .queryChannel ch tag channel => Sys2Proof.Machine.execQueryChannel ch tag channel s
  | .queryEntry ch tag key => Sys2Proof.Machine.execQueryEntry ch tag key s
  | .queryPage ch tag pageId => Sys2Proof.Machine.execQueryPage ch tag pageId s
  | .queryJob ch tag jobId => Sys2Proof.Machine.execQueryJob ch tag jobId s
  | .queryTemplate ch tag number => Sys2Proof.Machine.execQueryTemplate ch tag number s
  | .flagsClearOverflow ch tag target => Sys2Proof.Machine.execFlagsClearOverflow ch tag target s
  | .flagsClearFraming ch tag target => Sys2Proof.Machine.execFlagsClearFraming ch tag target s
  | .flagsClearStoreLowSeen ch tag => Sys2Proof.Machine.execFlagsClearStoreLowSeen ch tag s
  | .noticeFlush ch tag => Sys2Proof.Machine.execNoticeFlush ch tag s
  | .channelReset ch tag target => Sys2Proof.Machine.execChannelReset ch tag target s
  | .clear ch tag => Sys2Proof.Machine.execClear ch tag s
  | .start pageId => Sys2Proof.Machine.execStart pageId s
  | .demand => Sys2Proof.Machine.execDemand s
  | .done pageId => Sys2Proof.Machine.execDone pageId s
  | .fault pageId => Sys2Proof.Machine.execFault pageId s
  | .restart => Sys2Proof.Machine.execRestart s
  | .badMessage type pageId => Sys2Proof.Machine.execBadMessage type pageId s
  | .bandCompositionComplete => Sys2Proof.Machine.execBandCompositionComplete s
  | .bandSendingEnd => Sys2Proof.Machine.execBandSendingEnd s
  | .returnTransferEnd => Sys2Proof.Machine.execReturnTransferEnd s
  | .stallLimitExpiry ch => Sys2Proof.Machine.execStallLimitExpiry ch s
  | .holdExpiry => Sys2Proof.Machine.execHoldExpiry s
  | .gateExpiry cls => Sys2Proof.Machine.execGateExpiry cls s
  | .resetInputHigh => Sys2Proof.Machine.execResetInputHigh s

end Sys2Proof.Machine
end

