-- ==== Sys2Proof/Safety.lean ====
section
/-! DEFINITION. What the claims speak of: the bounds and balances that hold of the part between any two steps, and a part at
rest, to which one command can be given by itself. -/

namespace Sys2Proof.Machine

/-! ## Bounds and balances -/

/-- At most 64 entries are held, at most 56 of them notices (R164). -/
def QueueBounded (s : State) : Prop :=
  s.returnQueue.length ≤ Config.returnEntries ∧ s.noticesHeld ≤ Config.noticeEntries

/-- A channel holds no more than its buffer, its watermark lies in its range, RESYNC has an empty buffer and no binding, an
ACTIVE channel has no reset tag, and its counters have 32 bits (1.1, R1, R2, R4, R5, R18). -/
structure ChannelLegal (c : Channel) : Prop where
  fits : c.buffer.length ≤ Config.bufferSize
  watermark : Config.watermarkMin ≤ c.watermark ∧ c.watermark ≤ Config.watermarkMax
  resync : c.mode = .resync → c.buffer = [] ∧ c.binding = .unbound
  active : c.mode = .active → c.resetTag = 0
  counters : c.taken ≤ Config.counterMax ∧ c.refused ≤ Config.counterMax ∧ c.discarded ≤ Config.counterMax ∧
    c.dropped ≤ Config.counterMax ∧ c.stalls ≤ Config.counterMax

def ChannelsLegal (s : State) : Prop := ∀ ch : Chan, ChannelLegal s.chans[ch]

/-- No channel stands in the waiting list twice (1.7). -/
def WaitingDistinct (s : State) : Prop := (s.waiting.map (·.ch)).Nodup

/-- Every setting but the watermarks lies in its range, and the REPLY class has the interval 0 (R165, R175). -/
structure SettingsLegal (s : State) : Prop where
  stall : Config.stallMin ≤ s.stallLimit ∧ s.stallLimit ≤ Config.stallMax
  target : Config.targetMin ≤ s.globalTarget ∧ s.globalTarget ≤ Config.targetMax
  lead : Config.leadMin ≤ s.lead ∧ s.lead ≤ Config.leadMax
  lowMark : s.lowMark ≤ Config.blockCount
  intervals : ∀ cls, s.gates[classIndex cls].interval ≤ Config.intervalMax
  reply : s.gates[classIndex .reply].interval = 0

/-- The live jobs: at most 8, distinct ids, disjoint windows of nonzero keys, and a target that is 0 or in its range (2.1,
R22, R23). -/
structure JobsLegal (s : State) : Prop where
  slots : s.jobs.length ≤ Config.jobSlots
  ids : (s.jobs.map (·.id)).Nodup
  windows : s.jobs.Pairwise fun a b => a.overlaps b.base b.limit = false
  fields : ∀ j ∈ s.jobs, 1 ≤ j.id ∧ 1 ≤ j.base ∧ j.base ≤ j.limit ∧
    (j.target = 0 ∨ (Config.targetMin ≤ j.target ∧ j.target ≤ Config.targetMax))

/-- A name or title holds at most `limit` characters, each in 32 to 126 (R31, R92). -/
def Clean (limit : Nat) (name : List Byte) : Prop := name.length ≤ limit ∧ ∀ c ∈ name, 32 ≤ c.toNat ∧ c.toNat ≤ 126

/-- The directory: at most 1,024 entries, distinct keys, and cleaned names (2.3, R31). -/
structure EntriesLegal (s : State) : Prop where
  slots : s.entries.length ≤ Config.directorySize
  keys : (s.entries.map (·.key)).Nodup
  names : ∀ e ∈ s.entries, ∀ name, e.name = some name → Clean Config.nameLength name

/-- The versions of an entry, in the order incoming, current, retiring. -/
def Entry.versionList (e : Entry) : List Version := [e.incoming, e.current, e.retiring].filterMap id

/-- A complete version's gain lies in 512 to 2,048 (R70). -/
def Version.GainLegal (v : Version) : Prop :=
  ∀ mean gain tag, v.state = .complete mean gain tag → Config.gainMin ≤ gain ∧ gain ≤ Config.gainMax

def GainsLegal (s : State) : Prop := ∀ e ∈ s.entries, ∀ v ∈ e.versionList, v.GainLegal

/-- The blocks that an entry's versions hold. -/
def Entry.held (e : Entry) : Nat := (e.versionList.map fun v => runCount v.blocks).sum

/-- The free blocks and the blocks of all versions are the 229,376 of the pool (R40, R60). -/
def BlocksBalance (s : State) : Prop := s.freeCount + (s.entries.map Entry.held).sum = Config.blockCount

/-- The buffers that a page's band records hold. -/
def Page.held (p : Page) : Nat := (p.bands.map (·.buffers.length)).sum

/-- The ids of the page queue are distinct (R91). -/
def PageIdsDistinct (s : State) : Prop := (s.pages.map (·.id)).Nodup

/-- The free buffers and the buffers of all band records are the 128 of the band area (R133). -/
def BuffersBalance (s : State) : Prop := s.freeBuffers.length + (s.pages.map Page.held).sum = Config.bandBufferCount

/-- The page queue: at most 16 records, nonzero ids, max attempts 1 to 3 and no more attempts than that, a cleaned title, and
at most one page in GATHERING (6, R91, R92, R95, R106). -/
structure PagesLegal (s : State) : Prop where
  slots : s.pages.length ≤ Config.pageSlots
  fields : ∀ p ∈ s.pages, p.id ≠ 0 ∧ 1 ≤ p.maxAttempts ∧ p.maxAttempts ≤ Config.attemptsMax ∧ p.attempt ≤ p.maxAttempts
  titles : ∀ p ∈ s.pages, ∀ title, p.title = some title → Clean Config.titleLength title
  gathering : s.pages.countP (·.state = .gathering) ≤ 1

/-- The path list and the offer slot hold at most 4 pages together, and the purge list at most 8 ids (R147, R150). -/
def HeadBounded (s : State) : Prop :=
  s.path.length + s.offer.toList.length ≤ Config.pathMax ∧ s.purge.length ≤ Config.purgeMax

/-- A loaded template has a page size and a band height in their ranges (R75). -/
structure TemplateBuffer.Legal (t : TemplateBuffer) : Prop where
  width : Config.pageSizeMin ≤ t.width ∧ t.width ≤ Config.pageWidthMax
  height : Config.pageSizeMin ≤ t.height ∧ t.height ≤ Config.pageHeightMax
  band : t.bandHeight = 16 ∨ t.bandHeight = 32 ∨ t.bandHeight = 64 ∨ t.bandHeight = 128

/-- A loaded font's metrics lie in their ranges (R85). -/
structure FontMetrics.Legal (m : FontMetrics) : Prop where
  height : 8 ≤ m.height ∧ m.height ≤ 48
  tracking : m.tracking ≤ 8
  blank : 1 ≤ m.blank ∧ m.blank ≤ 48

/-- Every loaded template and font is within its ranges (R75, R85). -/
def TablesLegal (s : State) : Prop :=
  (∀ (i : Fin 12) (t : TemplateBuffer), s.templates[i] = some t → t.Legal) ∧
  ∀ (i : Fin 2) (m : FontMetrics), s.fonts[i].metrics = some m → m.Legal

/-- The frame store is in its canonical form (log entry 6). -/
def StoreCanonical (s : State) : Prop := storeWf s.store = true

/-! ## A part at rest -/

/-- The compositor and the head port have nothing to begin: the page queue is empty and the compositor is FREE, or the
compositor is BUSY and a page is in the offer slot. -/
def Steady (s : State) : Prop :=
  (s.pages = [] ∧ s.compositor = .free) ∨ ((∃ item need, s.compositor = .busy item need) ∧ s.offer.isSome = true)

/-- The store low state agrees with the free count (R55). -/
def StoreJudged (s : State) : Prop :=
  if s.storeLow then s.freeCount < recoveryLevel s.lowMark else s.lowMark ≤ s.freeCount

/-- The part is up, no record waits, no channel has a front record to present, and no examination is owed. -/
structure AtRest (s : State) : Prop where
  up : s.inReset = false
  noWaiters : s.waiting = []
  noWake : s.wake = false
  still : ∀ ch, s.presents ch = false
  judged : StoreJudged s
  steady : Steady s

/-- A part at rest whose channel `ch` is ACTIVE and empty with its ready indication asserted: a record sent on it is presented
by itself. -/
structure Listening (ch : Chan) (s : State) : Prop extends AtRest s where
  active : s.chans[ch].mode = .active
  empty : s.chans[ch].buffer = []
  ready : s.chans[ch].ready = true
  mark : s.chans[ch].watermark ≤ Config.watermarkMax

/-- A listening channel that skips nothing: a record sent on it is judged by its owner. -/
structure Quiet (ch : Chan) (s : State) : Prop extends Listening ch s where
  noSkip : ∀ key, s.chans[ch].binding ≠ .skipping key

/-- The state with what the last command sent cleared. -/
def State.cleared (s : State) : State := { s with out := [] }

/-- The state with `b` in the buffer of a channel. -/
def State.holding (ch : Chan) (b : List Byte) (s : State) : State := modChan ch (fun c => { c with buffer := b }) s

/-- The state in which a channel's record `b` waits for a resource kind: the record stays in the buffer, the channel's stall
counter is raised, and the channel's entry is the youngest of the waiting list (R9, R13). -/
def State.deferredOn (ch : Chan) (b : List Byte) (kind : Resource) (s : State) : State :=
  { modChan ch (fun c => { c with buffer := b, stalls := bump c.stalls }) s with
    waiting := s.waiting ++ [{ ch := ch, kind := kind, start := s.now }] }

/-- The state with one more record counted as taken on a channel (R9, R18). -/
def State.counted (ch : Chan) (s : State) : State := modChan ch (fun c => { c with taken := bump c.taken }) s

/-- The state with one more record counted as refused on a channel, and REFUSED posted for it (R9, R18). -/
def State.refusedOn (ch : Chan) (tag subject kind : Nat) (reason : Reason) (extra : List Item) (s : State) : State :=
  notify .refused tag subject ([.two ch, .two kind, .two reason.code] ++ extra)
    (modChan ch (fun c => { c with refused := bump c.refused }) s)

/-- No examination is owed, since no record waits. -/
def State.rested (s : State) : State := { s with wake := false }

/-- What a record's effect comes to on a part where nothing waits: in the same event the store low state is judged with the
record's tag, the offer conditions are judged and the compositor selects. -/
def State.settled (tag : Nat) (s : State) : State := (pump (judgeStore tag s)).rested

/-- Every ready indication stands at the level R2 gives it. -/
def ReadyJudged (s : State) : Prop := ∀ ch : Chan, s.chans[ch].ready = s.chans[ch].readyLevel

/-- An entry takes its place in the directory: that of the entry of its key, or a new one. -/
def State.putEntry (e : Entry) (s : State) : State :=
  { s with entries := if (s.entry? e.key).isSome then replaceFirst (·.key = e.key) e s.entries else s.entries ++ [e] }

/-- The acknowledgement of a SET of one pair (R176). -/
def setAck (tag param carried applied : Nat) : Reply where
  kind := .set
  tag := tag
  present := true
  operand := 0
  contents := .settings [{ param := param, carried := carried, applied := applied, clamped := applied ≠ carried }]

/-! ## The portraits that channels hold open (1.5, R54) -/

/-- The key that a binding holds open. -/
def Binding.openKey : Binding → Option Nat
  | .opened key _ => some key
  | .skipping _ => none
  | .unbound => none

/-- The filling versions that channels hold open, each with its entry, in the order of the channels, channel 0 first. -/
def State.openPortraits (s : State) : List (Entry × Version) :=
  (((List.finRange 4).filterMap fun ch : Chan => s.chans[ch].binding.openKey).eraseDups).filterMap fun key =>
    (s.entry? key).bind fun e => (e.incoming.filter Version.filling).map (e, ·)

/-- PORTRAIT-FAILED with reason ABANDONED (code 3, log entry 9) is posted for each of the portraits, in order. -/
def State.tellAbandoned (tag : Nat) (gone : List (Entry × Version)) (s : State) : State :=
  gone.foldl (fun s x => notify .portraitFailed tag x.1.key [.two x.2.number, .two 3] s) s

/-- The channels with the binding of each that is OPEN, with a key that meets the test, become SKIP with that key. -/
def skipOpen (p : Nat → Bool) (chans : Vector Channel 4) : Vector Channel 4 :=
  chans.map fun c => { c with binding := match c.binding with
    | .opened key n => if p key then .skipping key else .opened key n
    | .skipping key => .skipping key
    | .unbound => .unbound }

/-! ## The pins of a page (R35 to R37, R51) -/

/-- The version in the current role gains a pin (R35). -/
def Entry.pinned (e : Entry) : Entry := { e with current := e.current.map fun v => { v with pins := v.pins + 1 } }

/-- A complete version that awaits promotion takes the current role where that is empty, unpinned, or can retire (R37, R51). -/
def Entry.promoted (e : Entry) : Entry :=
  match e.awaiting, e.current, e.retiring with
  | none, _, _ => e
  | some v, none, _ => { e with incoming := none, current := some v }
  | some v, some c, none =>
    if c.pins = 0 then { e with incoming := none, current := some v }
    else { e with incoming := none, current := some v, retiring := some c }
  | some v, some c, some _ => if c.pins = 0 then { e with incoming := none, current := some v } else e

/-- The version of a number loses a pin: a retiring one that had no other is freed, and either role's last pin lets an awaiting
version be promoted (R36, R37). -/
def Entry.unpinned (number : Nat) (e : Entry) : Entry :=
  match e.retiring.filter (·.number = number), e.current.filter (·.number = number) with
  | some r, _ =>
    if r.pins ≤ 1 then Entry.promoted { e with retiring := none }
    else { e with retiring := some { r with pins := r.pins - 1 } }
  | none, some c =>
    let left : Entry := { e with current := some { c with pins := c.pins - 1 } }
    if c.pins ≤ 1 then left.promoted else left
  | none, none => e

/-- The versions that a page's cast list pins: keys and numbers, in cell order (R35). -/
def Page.named (p : Page) : List (Nat × Nat) :=
  match p.cast with
  | some c => c.cells.filterMap CastRecord.pinned
  | none => []

/-- The keys of the directory are distinct (2.3). -/
def EntryKeysDistinct (s : State) : Prop := (s.entries.map (·.key)).Nodup

/-! ## What a record command carries (11.2, 11.3) -/

/-- A record as the tables of 11.2 and 11.3 lay it out: its kind code, its tag, its fields as (offset, width, value), and what
follows from an offset on. -/
structure RecordForm where
  kind : Nat
  tag : Nat
  fields : List (Nat × Nat × Nat)
  rest : Nat × List Byte

/-- The record that a command is, by the tables of 11.2 and 11.3; none for a command that is no record. -/
def recordForm : Instr → Option RecordForm
  | .linkFrame _ _ _ => none
  | .masterReset => none
  | .unknownKind _ kind tag body => some ⟨kind, tag, [], 8, body⟩
  | .jobOpen _ tag jobId target base limit => some ⟨1, tag, [(8, 1, jobId), (9, 1, target), (12, 4, base), (16, 4, limit)], 20, []⟩
  | .jobClose _ tag jobId => some ⟨2, tag, [(8, 1, jobId)], 12, []⟩
  | .roster _ tag key publication name =>
    some ⟨3, tag, [(8, 4, key), (12, 1, publication), (13, 1, name.length)], 16, name⟩
  | .portraitHead _ tag key version width height faceX faceY faceW faceH fixedGain =>
    some ⟨16, tag, [(8, 4, key), (12, 2, version), (14, 2, width), (16, 2, height), (18, 2, faceX), (20, 2, faceY),
      (22, 2, faceW), (24, 2, faceH), (26, 2, fixedGain)], 28, []⟩
  | .portraitStrip _ tag key index lines pixels => some ⟨17, tag, [(8, 4, key), (12, 2, index), (14, 2, lines)], 16, pixels⟩
  | .portraitEnd _ tag key total => some ⟨18, tag, [(8, 4, key), (12, 2, total)], 16, []⟩
  | .template _ tag number width height bandHeight background placeholder ink slots =>
    some ⟨32, tag, [(8, 1, number), (10, 2, width), (12, 2, height), (14, 2, bandHeight), (16, 2, slots.length),
      (18, 1, background.r.toNat), (19, 1, background.g.toNat), (20, 1, background.b.toNat),
      (21, 1, placeholder.r.toNat), (22, 1, placeholder.g.toNat), (23, 1, placeholder.b.toNat),
      (24, 1, ink.r.toNat), (25, 1, ink.g.toNat), (26, 1, ink.b.toNat)], 32, slots.flatMap slotEntryBytes⟩
  | .font _ tag number height tracking blank =>
    some ⟨33, tag, [(8, 1, number), (9, 1, height), (10, 1, tracking), (11, 1, blank)], 12, []⟩
  | .glyph _ tag number code advance bitmap => some ⟨34, tag, [(8, 1, number), (9, 1, code), (10, 1, advance)], 12, bitmap⟩
  | .page _ tag pageId hold jobId number attempts title keys =>
    some ⟨48, tag, [(8, 2, pageId), (10, 2, hold), (12, 1, jobId), (13, 1, number), (14, 1, attempts), (15, 1, title.length),
      (16, 1, keys.length)], 20, title ++ keys.flatMap (beBytes 4)⟩
  | .pageCancel _ tag pageId => some ⟨49, tag, [(8, 2, pageId)], 12, []⟩
  | .setReadyWatermark _ tag target value => some ⟨64, tag, [(8, 1, 1), (12, 2, target.val + 1), (16, 4, value)], 20, []⟩
  | .setStallLimit _ tag value => some ⟨64, tag, [(8, 1, 1), (12, 2, 5), (16, 4, value)], 20, []⟩
  | .setGlobalTarget _ tag value => some ⟨64, tag, [(8, 1, 1), (12, 2, 6), (16, 4, value)], 20, []⟩
  | .setLead _ tag value => some ⟨64, tag, [(8, 1, 1), (12, 2, 7), (16, 4, value)], 20, []⟩
  | .setInterval _ tag cls value => some ⟨64, tag, [(8, 1, 1), (12, 2, intervalParam cls), (16, 4, value)], 20, []⟩
  | .setStoreLowMark _ tag value => some ⟨64, tag, [(8, 1, 1), (12, 2, 15), (16, 4, value)], 20, []⟩
  | .queryStatus _ tag => some ⟨65, tag, [(8, 1, 1), (12, 4, 0)], 16, []⟩
  | .queryChannel _ tag channel => some ⟨65, tag, [(8, 1, 2), (12, 4, channel)], 16, []⟩
  | .queryEntry _ tag key => some ⟨65, tag, [(8, 1, 3), (12, 4, key)], 16, []⟩
  | .queryPage _ tag pageId => some ⟨65, tag, [(8, 1, 4), (12, 4, pageId)], 16, []⟩
  | .queryJob _ tag jobId => some ⟨65, tag, [(8, 1, 5), (12, 4, jobId)], 16, []⟩
  | .queryTemplate _ tag number => some ⟨65, tag, [(8, 1, 6), (12, 4, number)], 16, []⟩
  | .flagsClearOverflow _ tag target => some ⟨66, tag, [(8, 2, 2 ^ target.val)], 12, []⟩
  | .flagsClearFraming _ tag target => some ⟨66, tag, [(8, 2, 2 ^ (4 + target.val))], 12, []⟩
  | .flagsClearStoreLowSeen _ tag => some ⟨66, tag, [(8, 2, 256)], 12, []⟩
  | .noticeFlush _ tag => some ⟨67, tag, [], 8, []⟩
  | .channelReset _ tag target => some ⟨80, tag, [(8, 1, target)], 12, []⟩
  | .clear _ tag => some ⟨81, tag, [], 8, []⟩
  | .start _ => none
  | .demand => none
  | .done _ => none
  | .fault _ => none
  | .restart => none
  | .badMessage _ _ => none
  | .bandCompositionComplete => none
  | .bandSendingEnd => none
  | .returnTransferEnd => none
  | .stallLimitExpiry _ => none
  | .holdExpiry => none
  | .gateExpiry _ => none
  | .resetInputHigh => none

end Sys2Proof.Machine
end

