-- ==== Sys2Proof/Certificates/Slice0/Obligations.lean ====
section
/-! DEFINITION. The statements for the provers. A record command stands for the arrival of its whole record (log entry 3);
its result is stated on a quiet channel of a part at rest, where nothing else can come about with it. The other commands are
stated in every state, up to `follow`, which is what the rules let happen after an event. -/

open Sys2Proof Sys2Proof.Machine

/-! ## The step and the reset input -/

/-- A step runs the command at the front of the queue on the state with the queue's rest; on an empty queue the reference
clock ticks, a timer that is due going first (log entry 2: the model's choice). -/
def Obligations.StepTakesFront : Prop :=
  (∀ (c : Instr) (rest : List Instr) (s : State), s.pending = c :: rest → step s = exec c { s with pending := rest }) ∧
  ∀ s : State, s.pending = [] →
    (s.inReset = true → step s = .next { s with out := [], now := s.now + 1 }) ∧
    (s.inReset = false → s.due = [] → step s = .next { s with out := [], now := s.now + 1 }) ∧
    ∀ d, s.inReset = false → s.due = [d] → step s = .next (runDue d s.cleared)

/-- The values that a master reset gives (R21, R39, R58, R73, R90, R109, R113, R144, R147, R177). -/
def Obligations.ResetValues : Prop :=
  (∀ ch : Chan, State.reset.chans[ch].buffer = [] ∧ State.reset.chans[ch].mode = .active ∧
    State.reset.chans[ch].ready = true ∧ State.reset.chans[ch].binding = .unbound ∧
    State.reset.chans[ch].watermark = 4608 ∧ State.reset.chans[ch].taken = 0 ∧ State.reset.chans[ch].refused = 0 ∧
    State.reset.chans[ch].discarded = 0 ∧ State.reset.chans[ch].dropped = 0 ∧ State.reset.chans[ch].stalls = 0 ∧
    State.reset.chans[ch].overflow = false ∧ State.reset.chans[ch].framing = false) ∧
  State.reset.waiting = [] ∧ State.reset.stallLimit = 30000 ∧
  State.reset.jobs = [] ∧ State.reset.entries = [] ∧
  blockNumbers State.reset.freeBlocks = List.range' 0 229376 ∧ State.reset.storeLow = false ∧
  State.reset.lowMark = 8192 ∧ State.reset.lowSeen = false ∧ State.reset.globalTarget = 128 ∧
  (∀ i : Fin 12, State.reset.templates[i] = none) ∧
  (∀ i : Fin 2, State.reset.fonts[i].metrics = none ∧ State.reset.fonts[i].glyphs = []) ∧
  State.reset.pages = [] ∧ State.reset.compositor = .free ∧ State.reset.freeBuffers = List.range 128 ∧
  State.reset.lead = 8 ∧ State.reset.offer = none ∧ State.reset.path = [] ∧ State.reset.sending = none ∧
  State.reset.purge = [] ∧
  State.reset.headCounters = { offered := 0, accepted := 0, faults := 0, restarts := 0, underruns := 0, protocol := 0 } ∧
  State.reset.returnQueue = [] ∧ State.reset.returnChannel = none ∧
  ∀ cls : NoticeClass, State.reset.gates[classIndex cls] =
    { last := none, overrun := false, interval := if cls = .roster ∨ cls = .portrait then 1000 else 0 }

/-- The state after reset has every bound and balance that the steps keep. -/
def Obligations.ResetLegal : Prop :=
  StoreCanonical State.reset ∧ QueueBounded State.reset ∧ WaitingDistinct State.reset ∧ ChannelsLegal State.reset ∧
  ReadyJudged State.reset ∧ SettingsLegal State.reset ∧ TablesLegal State.reset ∧ JobsLegal State.reset ∧
  EntriesLegal State.reset ∧ GainsLegal State.reset ∧ BlocksBalance State.reset ∧ PageIdsDistinct State.reset ∧
  BuffersBalance State.reset ∧ PagesLegal State.reset ∧ HeadBounded State.reset ∧ StoreJudged State.reset

/-- The reset input: low, every block takes its reset values and a band message leaving the port is aborted; high again, the
part sends one READY frame with the reset mark and the four indications, which are all asserted after a reset. That what the
environment gives and the clock stand, and when the frame is sent, are the model's choices (log entries 2 and 12), and so is that
every byte of the frame store reads 0 after the reset (log entry 6). -/
def Obligations.ResetInput : Prop :=
  (∀ s : State, exec .masterReset s = .next { State.reset with
    pending := s.pending, order := s.order, now := s.now, inReset := true
    out := if s.sending = none then [] else [.bandAborted] }) ∧
  (∀ s : State, s.inReset = true → exec .resetInputHigh s = .next { s with
    inReset := false
    out := [.ready s.chans[0].ready s.chans[1].ready s.chans[2].ready s.chans[3].ready true] }) ∧
  (∀ s t : State, exec .masterReset s = .next t →
    exec .resetInputHigh t = .next { t with inReset := false, out := [.ready true true true true true] }) ∧
  ∀ s : State, s.inReset = false → exec .resetInputHigh s = .next { s with out := [] }

/-- A command that arrives while the reset input is low is lost (R1 for frames; log entry 12 for the others). -/
def Obligations.LostInReset : Prop :=
  ∀ (c : Instr) (s : State), s.inReset = true → c ≠ .masterReset → c ≠ .resetInputHigh →
    exec c s = .next { s with out := [] }

/-! ## Frames, RESYNC and the decoder -/

/-- A link frame: appended to an ACTIVE channel whose free space holds it, an overflow where it does not; in RESYNC
dropped without SYNC, and the end of the RESYNC with it (R1, R3, R5). -/
def Obligations.LinkFrame : Prop :=
  ∀ (ch : Chan) (sync : Bool) (payload : List Byte) (s : State), s.inReset = false →
    (s.chans[ch].mode = .active → payload.length ≤ 16384 - s.chans[ch].buffer.length →
      exec (.linkFrame ch sync payload) s =
        .next (follow (evalReady ch (modChan ch (fun c => { c with buffer := c.buffer ++ payload }) s.cleared)))) ∧
    (s.chans[ch].mode = .active → 16384 - s.chans[ch].buffer.length < payload.length →
      exec (.linkFrame ch sync payload) s =
        .next (follow (enterResync ch 0 (notify .overflow 0 ch [.two ch]
          (modChan ch (fun c => { c with dropped := bump c.dropped, overflow := true }) s.cleared))))) ∧
    (s.chans[ch].mode = .resync → sync = false →
      exec (.linkFrame ch sync payload) s =
        .next (follow (modChan ch (fun c => { c with dropped := bump c.dropped }) s.cleared))) ∧
    (s.chans[ch].mode = .resync → sync = true →
      exec (.linkFrame ch sync payload) s =
        .next (follow (evalReady ch (notify .resyncDone s.chans[ch].resetTag ch [.two ch]
          (modChan ch (fun c => { c with buffer := payload, mode := .active, resetTag := 0 }) s.cleared)))))

/-- Entering RESYNC from ACTIVE: the channel's buffer is emptied, its binding is NONE, its ready indication is asserted and
its waiting record is dropped, with STALL-DISCARD and cause RESYNC; the portrait open there is gone, its blocks returned, with
PORTRAIT-FAILED, reason ABANDONED and the tag of the cause; the other channels stand. A channel in RESYNC stays there, and only
its reset tag changes (R4, R12, R17, R53, R54). The code of a failure's reason is the model's choice (log entry 9), and so is the
subject of a STALL-DISCARD for a record too short for its identifier (log entry 8). -/
def Obligations.ResyncEntered : Prop :=
  (∀ (ch : Chan) (tag : Nat) (s : State), s.chans[ch].mode = .resync →
    enterResync ch tag s = { s with chans := s.chans.set ch { s.chans[ch] with resetTag := tag } }) ∧
  (∀ (ch : Chan) (tag : Nat) (s : State), s.chans[ch].mode = .active → s.chans[ch].watermark ≤ 12288 →
    (enterResync ch tag s).chans[ch] = { s.chans[ch] with
      buffer := [], mode := .resync, binding := .unbound, resetTag := tag, ready := true
      discarded := if s.stalled ch then bump s.chans[ch].discarded else s.chans[ch].discarded } ∧
    (∀ c : Chan, c ≠ ch → (enterResync ch tag s).chans[c] = s.chans[c]) ∧
    (enterResync ch tag s).waiting = s.waiting.filter (·.ch ≠ ch) ∧
    (∀ key n, s.chans[ch].binding = .opened key n → (enterResync ch tag s).fillingVersion key = none) ∧
    let b := s.chans[ch].front
    let abandoned : State :=
      match s.chans[ch].binding with
      | .opened key _ =>
        match s.entry? key with
        | none => s
        | some e =>
          match e.incoming.filter Version.filling with
          | none => s
          | some v => notify .portraitFailed tag key [.two v.number, .two 3] { s with
              entries := replaceFirst (fun x => x.key = key) { e with incoming := none } s.entries
              freeBlocks := joinRuns s.freeBlocks v.blocks, wake := true }
      | _ => s
    let emptied := modChan ch (fun c => { c with buffer := [], mode := .resync, binding := .unbound, resetTag := tag }) abandoned
    enterResync ch tag s = evalReady ch (
      match s.waitOf ch with
      | none => emptied
      | some e => { notify .stallDiscard (recTag b) (recSubject b) [.two ch, .two (recKindCode b), .two e.kind.code, .two 2]
          (modChan ch (fun c => { c with discarded := bump c.discarded })
            { emptied with waiting := emptied.waiting.filter (·.ch ≠ ch) }) with wake := true }))

/-- A record whose kind code is none of the seventeen is refused with UNKNOWN-KIND (R8). -/
def Obligations.UnknownKind : Prop :=
  ∀ (ch : Chan) (kind tag : Nat) (body : List Byte) (s : State), Quiet ch s →
    (Instr.unknownKind ch kind tag body).wf = true →
    exec (.unknownKind ch kind tag body) s = .next (s.cleared.refusedOn ch tag 0 kind .unknownKind []).rested

/-- On a listening channel whose binding is SKIP with key k, a STRIP and an END of k are discarded, the END ending the skip,
and every other record is dealt with as if the binding were NONE (R11). -/
def Obligations.SkipDiscards : Prop :=
  (∀ (ch : Chan) (tag key index lines : Nat) (pixels : List Byte) (s : State), Listening ch s →
    s.chans[ch].binding = .skipping key → (Instr.portraitStrip ch tag key index lines pixels).wf = true →
    exec (.portraitStrip ch tag key index lines pixels) s =
      .next (modChan ch (fun c => { c with discarded := bump c.discarded }) s.cleared)) ∧
  (∀ (ch : Chan) (tag key total : Nat) (s : State), Listening ch s → s.chans[ch].binding = .skipping key →
    (Instr.portraitEnd ch tag key total).wf = true →
    exec (.portraitEnd ch tag key total) s =
      .next (modChan ch (fun c => { c with discarded := bump c.discarded, binding := .unbound }) s.cleared)) ∧
  ∀ (c : Instr) (ch : Chan) (b : List Byte) (key : Nat) (s : State), Listening ch s → s.chans[ch].binding = .skipping key →
    c.wf = true → c.wireRecord = some (ch, b) → carriesSkipKey b key = false →
    exec c s = exec c (setBinding ch .unbound s)

/-! ## Jobs and the directory -/

/-- JOB OPEN: the fields, then a duplicate id, then an overlapping window refuse it; it waits where no slot is free; else the
job is live with an empty directory of its own (R22). -/
def Obligations.JobOpen : Prop :=
  ∀ (ch : Chan) (tag jobId target base limit : Nat) (s : State), Quiet ch s →
    (Instr.jobOpen ch tag jobId target base limit).wf = true →
    exec (.jobOpen ch tag jobId target base limit) s = .next (
      if jobId = 0 ∨ base = 0 ∨ limit < base then (s.cleared.refusedOn ch tag jobId 1 .badField []).rested
      else if (s.job? jobId).isSome then (s.cleared.refusedOn ch tag jobId 1 .duplicateJob []).rested
      else if s.jobs.any (fun j => decide (j.base ≤ limit) && decide (base ≤ j.limit)) then
        (s.cleared.refusedOn ch tag jobId 1 .windowOverlap []).rested
      else if 8 ≤ s.jobs.length then s.cleared.deferredOn ch (jobOpenRecord tag jobId target base limit) .jobSlot
      else
        State.counted ch { s.cleared with
          jobs := s.jobs ++ [{ id := jobId, base := base, limit := limit
                               target := if target = 0 then 0 else max 32 (min target 224)
                               state := .opened, livePages := 0 }] })

/-- JOB CLOSE: refused where no job or a CLOSING one has the id; else the job is CLOSING with the record's tag, every filling
version of the job that a channel holds open leaves its entry with its blocks, PORTRAIT-FAILED with reason ABANDONED and the
record's tag is posted for each, channel 0 first, their channels' bindings become SKIP with their keys, the portraits of other
jobs and their bindings stand, and the job completes where it has no live pages (R25, R28, R53, R54). The code of a failure's
reason is the model's choice (log entry 9), and so is the order in which the blocks of several versions abandoned, and those of a
job's completion, join the free list (log entry 5). -/
def Obligations.JobClose : Prop :=
  ∀ (ch : Chan) (tag jobId : Nat) (s : State), Quiet ch s → (Instr.jobClose ch tag jobId).wf = true →
    (s.job? jobId = none →
      exec (.jobClose ch tag jobId) s = .next (s.cleared.refusedOn ch tag jobId 2 .noJob []).rested) ∧
    ∀ j, s.job? jobId = some j →
      (∀ t, j.state = .closing t →
        exec (.jobClose ch tag jobId) s = .next (s.cleared.refusedOn ch tag jobId 2 .jobClosing []).rested) ∧
      (j.state = .opened →
        let ofJob (key : Nat) : Bool := (s.entry? key).any fun e => decide (e.jobId = jobId)
        let gone := s.openPortraits.filter fun x => decide (x.1.jobId = jobId)
        exec (.jobClose ch tag jobId) s = .next (judgeStore tag
          ((completeJob { j with state := .closing tag }
            { s.cleared.tellAbandoned tag gone with
              jobs := replaceFirst (fun k => k.id = jobId) { j with state := .closing tag } s.jobs
              entries := gone.foldl (fun l x => replaceFirst (fun y => y.key = x.1.key) { x.1 with incoming := none } l)
                s.entries
              freeBlocks := gone.foldl (fun free x => joinRuns free x.2.blocks) s.freeBlocks
              chans := skipOpen ofJob s.chans }).counted ch)).rested)

/-- The completion of a CLOSING job without live pages: every entry of its window goes with the blocks of its versions, its
slot is freed, JOB-CLOSED is posted with its close tag and the two numbers, and nothing else of the tables changes (R28). -/
def Obligations.JobCompletes : Prop :=
  ∀ (j : Job) (tag : Nat) (s : State), j.state = .closing tag → j.livePages = 0 →
    let gone := s.entries.filter fun e => decide (j.base ≤ e.key) && decide (e.key ≤ j.limit)
    let t := completeJob j s
    t.entries = (s.entries.filter fun e => !(decide (j.base ≤ e.key) && decide (e.key ≤ j.limit))) ∧
    t.jobs = removeFirst (fun k => k.id = j.id) s.jobs ∧
    t.freeCount = s.freeCount + (gone.map Entry.held).sum ∧
    (∃ u : State, u.returnQueue = s.returnQueue ∧ u.gates = s.gates ∧ u.returnChannel = s.returnChannel ∧ u.now = s.now ∧
      t = notify .jobClosed tag j.id [.two gone.length, .four (gone.map Entry.held).sum] u) ∧
    t.chans = s.chans ∧ t.waiting = s.waiting ∧ t.pages = s.pages ∧ t.templates = s.templates ∧ t.store = s.store ∧
    t.fonts = s.fonts ∧ t.freeBuffers = s.freeBuffers ∧ t.compositor = s.compositor

/-- ROSTER: a reserved publication bit, then the window claim refuse it; it waits where no entry can be made; else the entry
of its key, made if need be, takes the cleaned name and the two flags, and ROSTER-TAKEN, and after it NAME-ALTERED where the
cleaning changed the name, are posted (R24, R29, R30, R31). -/
def Obligations.Roster : Prop :=
  ∀ (ch : Chan) (tag key publication : Nat) (name : List Byte) (s : State), Quiet ch s →
    (Instr.roster ch tag key publication name).wf = true →
    let clean := (name.take 40).map fun c => if 32 ≤ c.toNat ∧ c.toNat ≤ 126 then c else 32
    exec (.roster ch tag key publication name) s = .next (
      if 4 ≤ publication then (s.cleared.refusedOn ch tag key 3 .badField []).rested
      else
        match s.claim key with
        | .error reason => (s.cleared.refusedOn ch tag key 3 reason []).rested
        | .ok j =>
          if s.entry? key = none ∧ 1024 ≤ s.entries.length then
            s.cleared.deferredOn ch (rosterRecord tag key publication name) .entry
          else
            let old := (s.entry? key).getD (newEntry key j.id)
            let e := { old with
              name := if clean = [] then none else some clean
              withholdPhoto := decide (publication % 2 = 1), withholdName := decide (2 ≤ publication)
              nameAltered := decide (clean ≠ name) }
            let t := (notify .rosterTaken tag key [.two old.photoState.code] (s.cleared.putEntry e)).counted ch
            (if clean = name then t else notify .nameAltered tag key [] t).rested)

/-! ## Portraits -/

/-- A PORTRAIT HEAD on a channel whose binding is NONE: the admission order. A refused head leaves the binding SKIP with its
key. An admitted one makes the entry where there is none, takes the first blocks of the free list, and leaves a filling version in the
incoming role and the binding OPEN (R11, R41, R42, R44, R47, R61). On a channel whose binding is OPEN, with the head's key or
another, the portrait open there first fails with STRIP-ORDER under the head's tag: its blocks return, its incoming role is
emptied, the binding becomes NONE, the store low state is judged, and the head is judged on what that leaves (R43, R53, R55).
The code of a failure's reason is the model's choice (log entry 9). -/
def Obligations.PortraitHead : Prop :=
  ∀ (ch : Chan) (tag key version width height faceX faceY faceW faceH fixedGain : Nat) (s : State), Quiet ch s →
    (Instr.portraitHead ch tag key version width height faceX faceY faceW faceH fixedGain).wf = true →
    let refused (u : State) (reason : Reason) : State :=
      (setBinding ch (.skipping key) (u.refusedOn ch tag key 16 reason [])).rested
    let waits (u : State) (kind : Resource) : State := (u.deferredOn ch
      (portraitHeadRecord tag key version width height faceX faceY faceW faceH fixedGain) kind).rested
    let need := (width * height * 3 + 4095) / 4096
    let admitted (u : State) (e : Entry) : State :=
      if u.freeCount < need then waits u .blocks
      else
        let v : Version :=
          { number := version, width := width, height := height, blocks := (takeBlocks need u.freeBlocks).1
            lines := 0, sum := 0, count := 0
            fixedGain := if fixedGain = 0 then none else some (max 512 (min fixedGain 2048))
            state := .filling (faceWindow width height faceX faceY faceW faceH), pins := 0 }
        (judgeStore tag ((setBinding ch (.opened key 0)
          { u.putEntry { e with incoming := some v } with
            freeBlocks := (takeBlocks need u.freeBlocks).2 }).counted ch)).rested
    let judged (u : State) : State :=
      match u.claim key with
      | .error reason => refused u reason
      | .ok j =>
        if ¬(16 ≤ width ∧ width ≤ 1024 ∧ 16 ≤ height ∧ height ≤ 1280) then refused u .badSize
        else
          match u.entry? key with
          | none => if 1024 ≤ u.entries.length then waits u .entry else admitted u (newEntry key j.id)
          | some e =>
            if e.incoming.isSome then waits u (.incomingRole key)
            else
              match e.current with
              | none => admitted u e
              | some c =>
                if version ≤ c.number then refused u .staleVersion
                else if 0 < c.pins ∧ e.retiring.isSome then waits u (.retiringRole key)
                else admitted u e
    (s.chans[ch].binding = .unbound →
      exec (.portraitHead ch tag key version width height faceX faceY faceW faceH fixedGain) s = .next (judged s.cleared)) ∧
    ∀ k n e v win, s.chans[ch].binding = .opened k n → s.entry? k = some e → e.incoming = some v → v.state = .filling win →
      s.lowMark ≤ 229376 →
      exec (.portraitHead ch tag key version width height faceX faceY faceW faceH fixedGain) s =
        .next (judged (judgeStore tag (setBinding ch .unbound
          (notify .portraitFailed tag k [.two v.number, .two 1, .two v.lines, .two 0]
            { s.cleared with
              entries := replaceFirst (fun x => x.key = k) { e with incoming := none } s.entries
              freeBlocks := joinRuns s.freeBlocks v.blocks }))))

/-- A PORTRAIT STRIP on a channel without a skip: with no portrait open it is refused; in its order and of the open key its
lines are written, metered and counted; out of order it fails the open portrait; of another key it fails the open portrait
and is refused (R48, R49, R53, R65). The code of a failure's reason is the model's choice (log entry 9). -/
def Obligations.PortraitStrip : Prop :=
  ∀ (ch : Chan) (tag key index lines : Nat) (pixels : List Byte) (s : State), Quiet ch s →
    (Instr.portraitStrip ch tag key index lines pixels).wf = true →
    (s.chans[ch].binding = .unbound →
      exec (.portraitStrip ch tag key index lines pixels) s =
        .next (s.cleared.refusedOn ch tag key 17 .noOpenPortrait []).rested) ∧
    (∀ n e v win, s.chans[ch].binding = .opened key n → s.entry? key = some e → e.incoming = some v →
      v.state = .filling win →
      (index = n ∧ 1 ≤ lines ∧ v.lines + lines ≤ v.height ∧ pixels.length = lines * v.width * 3 →
        exec (.portraitStrip ch tag key index lines pixels) s =
          .next ((setBinding ch (.opened key (n + 1))
            { s.cleared with
              entries := replaceFirst (fun x => x.key = key)
                { e with incoming := some { v with
                    lines := v.lines + lines
                    sum := v.sum + (meterLines win v.width lines v.lines pixels).1
                    count := v.count + (meterLines win v.width lines v.lines pixels).2 } } s.entries
              store := writePieces (locate (v.lines * v.width * 3) (lines * v.width * 3) (blockAreas v.blocks)) pixels
                s.store }).counted ch)) ∧
      (¬(index = n ∧ 1 ≤ lines ∧ v.lines + lines ≤ v.height ∧ pixels.length = lines * v.width * 3) →
        exec (.portraitStrip ch tag key index lines pixels) s =
          .next (judgeStore tag ((setBinding ch (.skipping key)
            (notify .portraitFailed tag key [.two v.number, .two 1, .two v.lines, .two index]
              { s.cleared with
                entries := replaceFirst (fun x => x.key = key) { e with incoming := none } s.entries
                freeBlocks := joinRuns s.freeBlocks v.blocks })).counted ch)).rested)) ∧
    (∀ k n, s.chans[ch].binding = .opened k n → k ≠ key →
      exec (.portraitStrip ch tag key index lines pixels) s =
        .next (judgeStore tag ((failOpen ch k tag index .unbound s.cleared).refusedOn ch tag key 17 .noOpenPortrait
          [])).rested)

/-- A PORTRAIT END on a channel without a skip: with no portrait open it is refused; with both counts at the height it
completes the version, mean and gain fixed and the END's tag kept, and the roles change; else the portrait fails with
LINE-COUNT; of another key it fails the open portrait and is refused (R49, R50, R51, R66, R67, R68, R69). The code of a failure's
reason is the model's choice (log entry 9). -/
def Obligations.PortraitEnd : Prop :=
  ∀ (ch : Chan) (tag key total : Nat) (s : State), Quiet ch s → (Instr.portraitEnd ch tag key total).wf = true →
    (s.chans[ch].binding = .unbound →
      exec (.portraitEnd ch tag key total) s =
        .next (s.cleared.refusedOn ch tag key 18 .noOpenPortrait []).rested) ∧
    (∀ n e v win, s.chans[ch].binding = .opened key n → s.entry? key = some e → e.incoming = some v →
      v.state = .filling win →
      (total = v.height ∧ v.lines = v.height →
        let target := match s.job? e.jobId with
          | some j => if j.target = 0 then s.globalTarget else j.target
          | none => s.globalTarget
        let gain := match v.fixedGain with
          | some g => max 512 (min g 2048)
          | none => measuredGain target (v.sum / v.count)
        exec (.portraitEnd ch tag key total) s =
          .next (judgeStore tag ((takeRole e { v with state := .complete (v.sum / v.count) gain tag }
            (setBinding ch .unbound s.cleared)).counted ch)).rested) ∧
      (¬(total = v.height ∧ v.lines = v.height) →
        exec (.portraitEnd ch tag key total) s =
          .next (judgeStore tag ((setBinding ch .unbound
            (notify .portraitFailed tag key [.two v.number, .two 2, .two v.height, .two v.lines, .two total]
              { s.cleared with
                entries := replaceFirst (fun x => x.key = key) { e with incoming := none } s.entries
                freeBlocks := joinRuns s.freeBlocks v.blocks })).counted ch)).rested)) ∧
    (∀ k n, s.chans[ch].binding = .opened k n → k ≠ key →
      exec (.portraitEnd ch tag key total) s =
        .next (judgeStore tag ((failOpen ch k tag 0 .unbound s.cleared).refusedOn ch tag key 18 .noOpenPortrait
          [])).rested)

/-- The roles at a good END (R51, R52): with no current version the new one takes the role; an unpinned current version is
freed; a pinned one retires where that role is empty; else the new version awaits promotion and nothing is posted. -/
def Obligations.RoleTaken : Prop :=
  ∀ (e : Entry) (v : Version) (mean gain tag : Nat) (s : State), v.state = .complete mean gain tag →
    s.entry? e.key = some e →
    let ready : State → State := notify .portraitReady tag e.key
      [.two v.number, .two mean, .two gain, .two (if v.fixedGain.isSome then 1 else 0)]
    (e.current = none →
      takeRole e v s = ready (wakeUp { s with
        entries := replaceFirst (fun x => x.key = e.key) { e with incoming := none, current := some v } s.entries
        freeBlocks := joinRuns s.freeBlocks [] })) ∧
    (∀ c, e.current = some c → c.pins = 0 →
      takeRole e v s = notify .retakeReady tag e.key [.two v.number, .two c.number, .two 1] (ready (wakeUp { s with
        entries := replaceFirst (fun x => x.key = e.key) { e with incoming := none, current := some v } s.entries
        freeBlocks := joinRuns s.freeBlocks c.blocks }))) ∧
    (∀ c, e.current = some c → 0 < c.pins → e.retiring = none →
      takeRole e v s = notify .retakeReady tag e.key [.two v.number, .two c.number, .two 2] (ready (wakeUp { s with
        entries := replaceFirst (fun x => x.key = e.key)
          { e with incoming := none, current := some v, retiring := some c } s.entries
        freeBlocks := joinRuns s.freeBlocks [] }))) ∧
    (∀ c r, e.current = some c → 0 < c.pins → e.retiring = some r →
      takeRole e v s = { s with
        entries := replaceFirst (fun x => x.key = e.key) { e with incoming := some v } s.entries })

/-! ## Templates and fonts -/

/-- TEMPLATE: the refusals of the judging order with their step and slot, the wait for a FREE buffer, and the loading of
the lowest-numbered one. Of the slot conditions the first step that fails wins, with the first slot at fault: a kind that is
none of the four (4), a PORTRAIT slot with a cell above 79 (5), a PORTRAIT slot whose cell an earlier PORTRAIT slot carries (6)
(R74, R80). -/
def Obligations.Template : Prop :=
  ∀ (ch : Chan) (tag number width height bandHeight : Nat) (background placeholder ink : Rgb) (slots : List SlotFields)
    (s : State), Quiet ch s →
    (Instr.template ch tag number width height bandHeight background placeholder ink slots).wf = true →
    let b := templateRecord tag number width height bandHeight background placeholder ink slots
    let unknown := slots.findIdx? fun f => decide (f.kind = 0 ∨ 4 < f.kind)
    let beyond := slots.findIdx? fun f => decide (f.kind = 2 ∧ 79 < f.cell)
    let repeated := (List.range slots.length).find? fun i => (slots[i]?).any fun f =>
      decide (f.kind = 2) && (slots.take i).any fun g => decide (g.kind = 2 ∧ g.cell = f.cell)
    let refused (step i : Nat) : State := (s.cleared.refusedOn ch tag 0 32 .badTemplate [.two step, .two i]).rested
    exec (.template ch tag number width height bandHeight background placeholder ink slots) s = .next (
      if 7 < number then (s.cleared.refusedOn ch tag 0 32 .badField []).rested
      else if 192 < slots.length then (s.cleared.refusedOn ch tag 0 32 .badTemplate [.two 2, .two 0]).rested
      else
        match unknown, beyond, repeated with
        | some i, _, _ => refused 4 i
        | none, some i, _ => refused 5 i
        | none, none, some i => refused 6 i
        | none, none, none =>
          match (List.finRange 12).find? fun i => s.templates[i].isNone with
          | none => s.cleared.deferredOn ch b .templateBuffer
          | some i => ((loadTemplate i (settleTemplate b) s.cleared).counted ch).rested)

/-- What a TEMPLATE settles to: its size clamped, its band height defaulted, its colours as carried. The slots kept are those that
reach into the page and, for a CAPTION, pair a cell of a PORTRAIT slot kept; each keeps its index, its rectangle clipped to the
page, and the fields of its kind with an unknown font as 0 and an unknown alignment as LEFT; the counts of slots clipped,
defaulted and dropped follow. What its loading does to the buffers: the new one holds it with no pins, the number's previous
buffer is FREE or SUPERSEDED with the record's tag, and the others stand; TEMPLATE-LOADED carries the counts, the flags and the
disposition NONE 1, FREED 2 or SUPERSEDED 3, and TEMPLATE-FREED follows where the buffer became FREE (R75 to R78, R80, R81). -/
def Obligations.TemplateLoads : Prop :=
  (∀ (ch : Chan) (tag number width height bandHeight : Nat) (background placeholder ink : Rgb) (slots : List SlotFields),
    (Instr.template ch tag number width height bandHeight background placeholder ink slots).wf = true →
    let x := settleTemplate (templateRecord tag number width height bandHeight background placeholder ink slots)
    x.buffer.number = number ∧ x.buffer.tag = tag ∧ x.buffer.pins = 0 ∧ x.buffer.superseded = none ∧
    x.buffer.width = max 600 (min width 4800) ∧ x.buffer.height = max 600 (min height 7200) ∧
    x.buffer.sizeClamped = decide (x.buffer.width ≠ width ∨ x.buffer.height ≠ height) ∧
    x.buffer.bandHeight = (if bandHeight ∈ [16, 32, 64, 128] then bandHeight else 64) ∧
    x.buffer.bandDefaulted = decide (bandHeight ∉ [16, 32, 64, 128]) ∧
    x.buffer.background = background ∧ x.buffer.placeholder = placeholder ∧ x.buffer.ink = ink ∧
    x.buffer.slotCount = slots.length ∧
    x.carried = slots.length ∧ x.kept = x.buffer.bandIndex.length ∧
    x.carried = x.kept + x.droppedEmpty + x.droppedUnpaired ∧
    (∀ k ∈ x.buffer.bandIndex, 1 ≤ k.rect.w ∧ 1 ≤ k.rect.h ∧ k.rect.x + k.rect.w ≤ x.buffer.width ∧
      k.rect.y + k.rect.h ≤ x.buffer.height) ∧
    let reaches (f : SlotFields) : Prop := f.x < x.buffer.width ∧ f.y < x.buffer.height ∧ 0 < f.w ∧ 0 < f.h
    let keeps (f : SlotFields) : Prop := reaches f ∧ (f.kind = 3 → ∃ g ∈ slots, g.kind = 2 ∧ g.cell = f.paired ∧ reaches g)
    let font (f : SlotFields) : Fin 2 := if f.font = 1 then 1 else 0
    let align (f : SlotFields) : Align := if f.align = 1 then .centre else if f.align = 2 then .right else .left
    (∀ k : Slot, k ∈ x.buffer.bandIndex ↔ ∃ f, slots[k.index]? = some f ∧ keeps f ∧
      k.rect = { x := f.x, y := f.y, w := min f.w (x.buffer.width - f.x), h := min f.h (x.buffer.height - f.y) } ∧
      k.kind = if f.kind = 1 then .fill f.colour else if f.kind = 2 then .portrait f.cell
        else if f.kind = 3 then .caption f.paired (font f) (align f) else .title (font f) (align f)) ∧
    (x.buffer.bandIndex.map (·.index)).Nodup ∧
    x.droppedEmpty = slots.countP (fun f => decide (¬ reaches f)) ∧
    x.clipped = x.buffer.bandIndex.countP (fun k => (slots[k.index]?).any fun f =>
      decide (x.buffer.width < f.x + f.w ∨ x.buffer.height < f.y + f.h)) ∧
    x.defaulted = x.buffer.bandIndex.countP (fun k => (slots[k.index]?).any fun f =>
      decide ((f.kind = 3 ∨ f.kind = 4) ∧ (1 < f.font ∨ 2 < f.align)))) ∧
  (∀ (i : Fin 12) (x : SettledTemplate) (s : State), s.templates[i] = none →
    let number := x.buffer.number
    let tag := x.buffer.tag
    let loaded (disposition : Nat) (u : State) : State :=
      notify .templateLoaded tag number
        [.two i, .two x.carried, .two x.kept, .two x.clipped, .two x.defaulted, .two x.droppedEmpty, .two x.droppedUnpaired,
          .two ((x.buffer.height + x.buffer.bandHeight - 1) / x.buffer.bandHeight),
          flagItem [x.buffer.sizeClamped, x.buffer.bandDefaulted], .two disposition]
        { u with templates := u.templates.set i (some x.buffer) }
    loadTemplate i x s =
      match s.mappedBuffer number with
      | none => loaded 1 s
      | some k =>
        match s.templates[k] with
        | none => loaded 1 s
        | some old =>
          if old.pins = 0 then
            notify .templateFreed tag number [.two k]
              (loaded 2 { s with templates := s.templates.set k none, wake := true })
          else loaded 3 { s with templates := s.templates.set k (some { old with superseded := some tag }) }) ∧
  ∀ (i : Fin 12) (x : SettledTemplate) (s : State), s.templates[i] = none →
    (loadTemplate i x s).templates[i] = some x.buffer ∧
    ∀ k : Fin 12, k ≠ i → (loadTemplate i x s).templates[k] =
      if s.mappedBuffer x.buffer.number = some k then
        match s.templates[k] with
        | some old => if old.pins = 0 then none else some { old with superseded := some x.buffer.tag }
        | none => none
      else s.templates[k]

/-- FONT: a number above 1 is refused; it waits while the font lock is held; else the clamped metrics are stored, the font's
glyphs are emptied and FONT-LOADED is posted (R85, R88). That FONT-LOADED carries its three flags as one item is the model's
reading (log entry 17: DEDUCED). -/
def Obligations.Font : Prop :=
  ∀ (ch : Chan) (tag number height tracking blank : Nat) (s : State), Quiet ch s →
    (Instr.font ch tag number height tracking blank).wf = true →
    exec (.font ch tag number height tracking blank) s = .next (
      if 1 < number then (s.cleared.refusedOn ch tag 0 33 .badField []).rested
      else if s.pages.any (fun p => p.state.pinning) then
        s.cleared.deferredOn ch (fontRecord tag number height tracking blank) .fontLock
      else
        let m : FontMetrics :=
          { height := max 8 (min height 48), tracking := min tracking 8, blank := max 1 (min blank 48) }
        ((notify .fontLoaded tag number [.two m.height, .two m.tracking, .two m.blank,
            flagItem [decide (m.height ≠ height), decide (m.tracking ≠ tracking), decide (m.blank ≠ blank)]]
          { s.cleared with fonts := s.fonts.set (fontIndex number) { metrics := some m, glyphs := [] } }).counted ch).rested)

/-- GLYPH: the refusals of the judging order, the wait for the font lock, and the storing of the glyph in its font in place
of any glyph of its code (R86). -/
def Obligations.Glyph : Prop :=
  ∀ (ch : Chan) (tag number code advance : Nat) (bitmap : List Byte) (s : State), Quiet ch s →
    (Instr.glyph ch tag number code advance bitmap).wf = true →
    let refused (reason : Reason) (extra : List Item) : State := (s.cleared.refusedOn ch tag 0 34 reason extra).rested
    exec (.glyph ch tag number code advance bitmap) s = .next (
      if 1 < number then refused .badField []
      else if ¬(32 ≤ code ∧ code ≤ 126) then refused .badGlyph [.two 2]
      else if ¬(1 ≤ advance ∧ advance ≤ 48) then refused .badGlyph [.two 3]
      else if s.pages.any (fun p => p.state.pinning) then
        s.cleared.deferredOn ch (glyphRecord tag number code advance bitmap) .fontLock
      else
        match s.fonts[fontIndex number].metrics with
        | none => refused .badGlyph [.two 5]
        | some m =>
          if bitmap.length ≠ m.height * ((advance + 7) / 8) then refused .badGlyph [.two 6]
          else
            State.counted ch { s.cleared with
              fonts := s.fonts.set (fontIndex number)
                { s.fonts[fontIndex number] with
                  glyphs := putGlyph { code := code, advance := advance, bitmap := bitmap }
                    s.fonts[fontIndex number].glyphs } })

/-! ## Pages -/

/-- PAGE: the refusals of the judging order, the wait for a page slot, and the taking: a page record in QUEUED at the young
end, the pin, the job's live-page count, PAGE-TAKEN, and the next page where none is in GATHERING (R91, R92, R93, R95). That the
page's cells stand in ascending order of cell number is the model's choice (log entry 10). -/
def Obligations.Page : Prop :=
  ∀ (ch : Chan) (tag pageId hold jobId number attempts : Nat) (title : List Byte) (keys : List Nat) (s : State),
    Quiet ch s → (Instr.page ch tag pageId hold jobId number attempts title keys).wf = true →
    let refused (reason : Reason) (extra : List Item) : State := (s.cleared.refusedOn ch tag pageId 48 reason extra).rested
    exec (.page ch tag pageId hold jobId number attempts title keys) s = .next (
      if pageId = 0 ∨ 7 < number ∨ 80 < keys.length then refused .badField []
      else if (s.page? pageId).isSome then refused .duplicatePage []
      else
        match s.job? jobId with
        | none => refused .noJob []
        | some j =>
          if j.state ≠ .opened then refused .jobClosing []
          else
            match s.mappedBuffer number with
            | none => refused .noTemplate []
            | some i =>
              match firstOutside j keys, firstRepeatedKey keys, s.templates[i] with
              | some position, _, _ => refused .outOfWindow [.two position]
              | none, some position, _ => refused .duplicateKey [.two position]
              | none, none, none => refused .noTemplate []
              | none, none, some t =>
                if 16 ≤ s.pages.length then
                  s.cleared.deferredOn ch (pageRecord tag pageId hold jobId number attempts title keys) .pageSlot
                else
                  let clean := (title.take 64).map fun c => if 32 ≤ c.toNat ∧ c.toNat ≤ 126 then c else 32
                  let m := if attempts = 0 ∨ 3 < attempts then 3 else attempts
                  let ignored := (List.range keys.length).countP fun c => !t.cellSet.contains c
                  let p : Machine.Page :=
                    { id := pageId, jobId := jobId, tag := tag, buffer := i, maxAttempts := m, hold := hold
                      title := if clean = [] then none else some clean
                      cells := t.cellSet.map fun c => (c, (keys[c]?).getD 0)
                      state := .queued, permit := false, timer := .notStarted, cast := none, attempt := 0
                      spoiled := false, firstCount := 0, bands := [], sendLog := [] }
                  ((fillGathering (notify .pageTaken tag pageId
                    [.two s.pages.length, .two i, .two m, .two ignored,
                      flagItem [decide (m ≠ attempts), decide (clean ≠ title), decide (0 < ignored)]]
                    { s.cleared with
                      pages := s.pages ++ [p]
                      templates := s.templates.set i (some { t with pins := t.pins + 1 })
                      jobs := replaceFirst (fun k => k.id = jobId) { j with livePages := j.livePages + 1 }
                        s.jobs })).counted ch).settled tag)

/-- PAGE CANCEL: refused where no record has the id and where the page is at the press; else the page is released with
PAGE-CANCELLED, carrying the state it held (R104). -/
def Obligations.PageCancel : Prop :=
  ∀ (ch : Chan) (tag pageId : Nat) (s : State), Quiet ch s → (Instr.pageCancel ch tag pageId).wf = true →
    exec (.pageCancel ch tag pageId) s = .next (
      match s.page? pageId with
      | none => (s.cleared.refusedOn ch tag pageId 49 .unknownPage []).rested
      | some p =>
        if p.state = .offered ∨ p.state = .printing ∨ p.state = .inPath then
          (s.cleared.refusedOn ch tag pageId 49 .tooLate []).rested
        else
          ((releasePage tag pageId (fun p => notify .pageCancelled tag pageId [.two p.state.code]) s.cleared).counted
            ch).settled tag)

/-- What a page pins at its composition start, and what its release gives back. At the start it is COMPOSING with its cast list,
its captions, its counts and the start cause, each version that a PORTRAIT cell names gains a pin, PAGE-COMPOSING is posted and
the next page enters GATHERING (R35, R99, R102; how a stopped timer is held: log entry 31, the order of PAGE-COMPOSING's items: log
entry 17). A released page leaves the queue with its band records: its id is gone, the other ids stand in their order, its buffers
are free again, and what the compositor was doing for it is abandoned; each version it pinned loses a pin, with what R36 and R37
make of that, its template buffer loses one and is FREE where it was superseded and that was its last, and its job has one live
page less and completes where it is CLOSING and that was its last. This holds with any announcing notice (R27, R28, R36, R37,
R82, R107, R120, R143). -/
def Obligations.PageReleased : Prop :=
  (∀ (p : Machine.Page) (b : TemplateBuffer) (s : State), s.templateOf p = some b → EntryKeysDistinct s →
    ((p.cells.map (·.2)).filter (· ≠ 0)).Nodup →
    let cells := p.cells.map fun c => captureCell s b c.1 c.2
    let captions := b.slots.filterMap (captureCaption s cells p.title)
    let cast : Cast :=
      { cells := cells, captions := captions
        cause := if s.pageReady p then .ready else if p.timer = .expired then .expired else .noHold
        missing := cells.countP (·.content = .missing), withheld := cells.countP (·.content = .withheld)
        undersized := cells.countP CastRecord.undersized, clipped := captions.countP CaptionRecord.isClipped
        omitted := captions.countP fun c => c.layout = some .omitted }
    compositionStart p s = fillGathering (notify .pageComposing p.tag p.id
      [.two cast.cause.code, .two cast.missing, .two cast.withheld, .two cast.undersized, .two cast.clipped, .two cast.omitted,
        flagItem [decide (1 ≤ cast.missing)]]
      { s with
        pages := replaceFirst (fun q => q.id = p.id)
          { p with state := .composing, permit := false, cast := some cast
                   timer := if p.timer = .expired then .expired else .notStarted } s.pages
        entries := s.entries.map fun e =>
          if e.key ∈ (cells.filterMap CastRecord.pinned).map (·.1) then e.pinned else e })) ∧
  ∀ (tag id : Nat) (code : NoticeCode) (noticeTag subject : Machine.Page → Nat) (detail : Machine.Page → List Item)
    (p : Machine.Page) (s : State), PageIdsDistinct s → s.page? id = some p →
    let t := releasePage tag id (fun p => notify code (noticeTag p) (subject p) (detail p)) s
    let lastLive := (s.job? p.jobId).filter fun j => j.state ≠ .opened && j.livePages ≤ 1
    (EntryKeysDistinct s → (p.named.map (·.1)).Nodup →
      t.entries = (s.entries.map fun e =>
        match p.named.find? (·.1 = e.key) with
        | some k => e.unpinned k.2
        | none => e).filter fun e => !lastLive.any fun j => decide (j.base ≤ e.key ∧ e.key ≤ j.limit)) ∧
    (∀ i : Fin 12, t.templates[i] =
      if i = p.buffer then
        match s.templates[i] with
        | some b => if b.superseded.isSome ∧ b.pins ≤ 1 then none else some { b with pins := b.pins - 1 }
        | none => none
      else s.templates[i]) ∧
    t.jobs = (match s.job? p.jobId with
      | none => s.jobs
      | some j =>
        if lastLive.isSome then removeFirst (fun k => k.id = p.jobId) s.jobs
        else replaceFirst (fun k => k.id = p.jobId) { j with livePages := j.livePages - 1 } s.jobs) ∧
    t.pages.map (·.id) = (s.pages.map (·.id)).erase id ∧
    t.freeBuffers.length = s.freeBuffers.length + p.held ∧
    (∀ item need, t.compositor = .busy item need → s.compositor = .busy item need ∧ item.page ≠ id) ∧
    (∀ item need, t.compositor = .waiting item need → s.compositor = .waiting item need ∧ item.page ≠ id) ∧
    t.chans = s.chans ∧ t.waiting = s.waiting ∧ t.store = s.store ∧ t.fonts = s.fonts

/-! ## Settings, queries and flags -/

/-- SET of one pair: the value is clamped to the parameter's range, the change has its owner's effect in the same event, and
the acknowledgement is stored after it (R2, R16, R56, R66, R142, R167, R175, R176). Its status byte is the model's choice (log
entry 34). -/
def Obligations.SettingsTaken : Prop :=
  ∀ (ch : Chan) (tag value : Nat) (s : State), Quiet ch s → ReadyJudged s → tag < 2 ^ 32 → value < 2 ^ 32 →
    (let v := max 100 (min value 600000)
     exec (.setStallLimit ch tag value) s =
       .next ((storeReply (setAck tag 5 value v) { s.cleared with stallLimit := v }).counted ch).rested) ∧
    (let v := max 32 (min value 224)
     exec (.setGlobalTarget ch tag value) s =
       .next ((storeReply (setAck tag 6 value v) { s.cleared with globalTarget := v }).counted ch).rested) ∧
    (let v := max 1 (min value 64)
     exec (.setLead ch tag value) s =
       .next ((storeReply (setAck tag 7 value v) { s.cleared with lead := v }).counted ch).rested) ∧
    (let v := min value 229376
     exec (.setStoreLowMark ch tag value) s =
       .next ((storeReply (setAck tag 15 value v) (judgeStore tag { s.cleared with lowMark := v })).counted ch).rested) ∧
    (∀ target : Chan, let v := max 512 (min value 12288)
     exec (.setReadyWatermark ch tag target value) s =
       .next ((storeReply (setAck tag (target.val + 1) value v)
         (evalReady target (modChan target (fun c => { c with watermark := v }) s.cleared))).counted ch).rested) ∧
    (∀ cls : NoticeClass, cls ≠ .reply → let v := min value 65535
     exec (.setInterval ch tag cls value) s =
       .next ((storeReply (setAck tag (intervalParam cls) value v) (releaseRule { s.cleared with
         gates := s.gates.set (classIndex cls) { s.gates[classIndex cls] with interval := v } })).counted ch).rested)

/-- QUERY: a channel above 3 or a template number above 7 is refused; it waits where 64 entries are held; else the reply, the
state as it stands at that instant, is stored and nothing else changes (R164, R171). The instant is before the QUERY's own count
(log entry 19) and the items' widths are those of log entry 10: the model's choices. -/
def Obligations.QueriesTaken : Prop :=
  ∀ (ch : Chan) (tag operand : Nat) (s : State), Quiet ch s → tag < 2 ^ 32 → operand < 2 ^ 32 →
    let answer (kind : ReplyKind) (n : Nat) : State :=
      let b := queryRecord tag kind.code n
      if 64 ≤ s.returnQueue.length then s.cleared.deferredOn ch b .returnSpace
      else ((storeReply (queryReply (s.cleared.holding ch b) tag n kind) s.cleared).counted ch).rested
    let refused : State := (s.cleared.refusedOn ch tag 0 65 .badField []).rested
    exec (.queryStatus ch tag) s = .next (answer .status 0) ∧
    exec (.queryChannel ch tag operand) s = .next (if 3 < operand then refused else answer .channel operand) ∧
    exec (.queryEntry ch tag operand) s = .next (answer .entry operand) ∧
    exec (.queryPage ch tag operand) s = .next (answer .page operand) ∧
    exec (.queryJob ch tag operand) s = .next (answer .job operand) ∧
    exec (.queryTemplate ch tag operand) s = .next (if 7 < operand then refused else answer .template operand)

/-- FLAGS CLEAR clears the sticky flag it names and nothing else; NOTICE FLUSH flushes every held entry, and the release rule
is applied (R170, R174). -/
def Obligations.FlagsAndFlush : Prop :=
  ∀ (ch : Chan) (tag : Nat) (s : State), Quiet ch s → tag < 2 ^ 32 →
    (∀ target : Chan, exec (.flagsClearOverflow ch tag target) s =
      .next ((modChan target (fun c => { c with overflow := false }) s.cleared).counted ch)) ∧
    (∀ target : Chan, exec (.flagsClearFraming ch tag target) s =
      .next ((modChan target (fun c => { c with framing := false }) s.cleared).counted ch)) ∧
    exec (.flagsClearStoreLowSeen ch tag) s = .next (State.counted ch { s.cleared with lowSeen := false }) ∧
    exec (.noticeFlush ch tag) s = .next ((releaseRule { s.cleared with
      returnQueue := s.returnQueue.map fun h => { h with flushed := true } }).counted ch).rested

/-- CHANNEL RESET: a number above 3 is refused; else the record is counted on its own channel and the named channel enters
RESYNC with the record's tag (R4, R12). -/
def Obligations.ChannelReset : Prop :=
  ∀ (ch : Chan) (tag : Nat) (s : State), Quiet ch s → tag < 2 ^ 32 →
    (∀ n, 3 < n → n < 256 → exec (.channelReset ch tag n) s =
      .next (s.cleared.refusedOn ch tag 0 80 .badField []).rested) ∧
    ∀ target : Chan, exec (.channelReset ch tag target) s =
      .next (judgeStore tag ((enterResync target tag s.cleared).counted ch)).rested

/-- CLEAR: a band message leaving the port is stopped, one PURGE is sent for each page at the press, oldest first, their ids
join the purge list, of which the newest 8 stand, and the offer slot, the path list and the send cursor are empty;
PORTRAIT-FAILED with reason ABANDONED and the record's tag is posted for each open portrait, channel 0 first, and every OPEN
binding becomes SKIP with its key, every other standing; the tables, the block pool and the band area are as after a reset.
All else stands but what the notices and the judging of the store low state do to the return queue, its channel and the gates:
the settings, the fonts, the frame store, the channels' buffers, states, watermarks, flags and counters but the count of the
CLEAR itself (R20, R38, R54, R57, R84, R108, R144, R161). The code of a failure's reason is the model's choice (log entry 9). -/
def Obligations.Clear : Prop :=
  ∀ (ch : Chan) (tag : Nat) (s : State), Quiet ch s → tag < 2 ^ 32 →
    let atPress := s.path ++ (s.offer.map fun o => o.page).toList
    let ids := s.purge ++ atPress
    let told := State.tellAbandoned tag s.openPortraits { s.cleared with
      out := (if s.sending = none then [] else [.bandAborted]) ++ atPress.map Output.purge }
    exec (.clear ch tag) s = .next (judgeStore tag (State.counted ch { told with
      chans := skipOpen (fun _ => true) s.chans
      sending := none
      offer := none
      path := []
      cursor := none
      purge := ids.drop (ids.length - 8)
      jobs := []
      entries := []
      freeBlocks := [{ first := 0, count := 229376 }]
      templates := Vector.replicate 12 none
      pages := []
      compositor := .free
      freeBuffers := List.range 128 })).rested

/-! ## The press -/

/-- START: it moves the offered page to PRINTING with its send cursor at 0; of another page or without an offer it is ignored
with HEAD-PROTOCOL; of a page in the purge list it is ignored (R149, R152, R162). A message whose type is none of the five is
ignored with BAD-MESSAGE (R182), the notice carrying the page id field as received, also where the purge list holds that id (log
entry 13: the model's choices). -/
def Obligations.PressStart : Prop :=
  (∀ (id : Nat) (s : State), s.inReset = false →
    exec (.start id) s = .next (follow (
      if id ∈ s.purge then s.cleared
      else
        match s.offer with
        | none => headProtocol 17 id .noOffer s.cleared
        | some slot =>
          if slot.printing then headProtocol 17 id .noOffer s.cleared
          else if slot.page ≠ id then headProtocol 17 id .wrongPage s.cleared
          else modPage id (fun p => { p with state := .printing })
            { s.cleared with offer := some { page := id, printing := true }, cursor := some 0 }))) ∧
  ∀ (type id : Nat) (s : State), s.inReset = false →
    exec (.badMessage type id) s = .next (follow (notify .headProtocol 0 id [.two type, .two 7]
      { s.cleared with headCounters := { s.headCounters with protocol := bump s.headCounters.protocol } }))

/-- DEMAND for band b of the page in PRINTING: a COMPOSED record is sent real from its buffers; another record, or none, is
answered with a filler of the background, which spoils the page and is counted and posted; while a message leaves, or with no
page in PRINTING, the DEMAND is ignored (R153, R154, R155, R162). -/
def Obligations.Demand : Prop :=
  ∀ s : State, s.inReset = false →
    (s.printingPage = none → exec .demand s = .next (follow (
      if s.purge = [] then headProtocol 18 0 .notPrinting s.cleared else s.cleared))) ∧
    ∀ p t, s.printingPage = some p → s.templateOf p = some t →
      (s.sending ≠ none → exec .demand s = .next (follow (headProtocol 18 0 .busy s.cleared))) ∧
      (s.sending = none → ∀ b, s.cursor.getD 0 = b →
        (∀ r, p.band? b = some r → r.state = .composed →
          exec .demand s = .next (follow { s.cleared with
            pages := replaceFirst (fun q => q.id = p.id) { p with sendLog := p.sendLog.set b .real } s.pages
            cursor := some (b + 1)
            sending := some { page := p.id, band := b, real := true }
            out := [.bandBegin p.id b (t.bandLines b) t.width false (decide (b + 1 = t.bandCount)) p.spoiled
              (readPieces s.store (locate 0 (t.bandLines b * t.width * 3) (bandAreas r.buffers)))] })) ∧
        ((∀ r, p.band? b = some r → r.state ≠ .composed) →
          exec .demand s = .next (follow (notify .underrun p.tag p.id
            [.two p.attempt, .two b, .two (if (p.band? b).isSome then 1 else 2)]
            { s.cleared with
              headCounters := { s.headCounters with underruns := bump s.headCounters.underruns }
              pages := replaceFirst (fun q => q.id = p.id)
                { p with sendLog := p.sendLog.set b .filler, spoiled := true } s.pages
              cursor := some (b + 1)
              sending := some { page := p.id, band := b, real := false }
              out := [.bandBegin p.id b (t.bandLines b) t.width true (decide (b + 1 = t.bandCount)) true
                (fillerBytes t b)] }))))

/-- DONE: of a page in the purge list it takes that id away; of the page at the front of the path list it counts and releases
the page with SHEET-ACCEPTED; else it is ignored with HEAD-PROTOCOL (R157, R162). That SHEET-ACCEPTED carries the spoiled and
the short flag as two items of 0 or 1 is the model's reading (log entry 17: DEDUCED, unsafe). -/
def Obligations.Done : Prop :=
  ∀ (id : Nat) (s : State), s.inReset = false →
    exec (.done id) s = .next (follow (
      if id ∈ s.purge then { s.cleared with purge := s.purge.filter (· ≠ id) }
      else if s.path.head? = some id then
        releasePage 0 id (fun p => notify .sheetAccepted p.tag p.id
            [.two p.attempt, .two (if p.spoiled then 1 else 0), .two (if p.short then 1 else 0)])
          { s.cleared with path := s.path.tail
                           headCounters := { s.headCounters with accepted := bump s.headCounters.accepted } }
      else if id ∈ s.path then headProtocol 19 id .notOldest s.cleared
      else headProtocol 19 id .notInPath s.cleared))

/-- FAULT: of a page in the purge list it takes that id away; of a page that is not IN PATH or PRINTING it is ignored with
HEAD-PROTOCOL; else it is counted, the page and every younger page at the press are returned, oldest first, and SHEET-FAULTED
carries how many went to REPLAY and how many failed (R158, R159, R162). -/
def Obligations.Fault : Prop :=
  ∀ (id : Nat) (s : State), s.inReset = false →
    exec (.fault id) s = .next (follow (
      if id ∈ s.purge then { s.cleared with purge := s.purge.filter (· ≠ id) }
      else
        match s.page? id with
        | none => headProtocol 20 id .notInPath s.cleared
        | some p =>
          if p.state = .inPath ∨ p.state = .printing then
            let ids := ((s.pages.dropWhile fun q => q.id ≠ id).filter fun q => q.state.atPress).map (·.id)
            let r := returnPages ids
              { s.cleared with headCounters := { s.headCounters with faults := bump s.headCounters.faults } }
            notify .sheetFaulted p.tag id [.two r.2.1, .two r.2.2] r.1
          else headProtocol 20 id .notInPath s.cleared))

/-- RESTART is counted, every page at the press is returned, oldest first, the purge list is emptied, and ENGINE-RESTART
carries how many went to REPLAY and how many failed (R159, R160). A page that may be printed again goes to REPLAY with its
next attempt, its SENT records COMPOSED again and its send log gone; one that may not is released with PAGE-FAILED, its attempt
as it was and the state it failed from; either leaves the offer slot or the path list first. A band message of the page that is
leaving the port is stopped and the Sending item is IDLE (R106, R141, R156). -/
def Obligations.Restart : Prop :=
  (∀ s : State, s.inReset = false →
    let ids := (s.pages.filter fun q => q.state.atPress).map (·.id)
    let r := returnPages ids
      { s.cleared with headCounters := { s.headCounters with restarts := bump s.headCounters.restarts } }
    exec .restart s = .next (follow (notify .engineRestart 0 0 [.two r.2.1, .two r.2.2] { r.1 with purge := [] }))) ∧
  (∀ (id : Nat) (p : Machine.Page) (s : State), s.page? id = some p → p.maxAttempts < p.attempt + 1 →
    let stopped := (s.sending.filter fun x => decide (x.page = id)).isSome
    let inSlot := (s.offer.filter fun o => decide (o.page = id)).isSome
    returnPages [id] s = (releasePage 0 id (fun p => notify .pageFailed p.tag p.id
        [.two p.attempt, flagItem [p.short], .two p.state.code])
      { s with
        sending := if stopped then none else s.sending
        out := if stopped then s.out ++ [.bandAborted] else s.out
        path := s.path.filter (· ≠ id)
        offer := if inSlot then none else s.offer
        cursor := if inSlot then none else s.cursor }, 0, 1)) ∧
  ∀ (id : Nat) (p : Machine.Page) (s : State), s.page? id = some p → p.attempt + 1 ≤ p.maxAttempts →
    (returnPages [id] s).2 = (1, 0) ∧
    (returnPages [id] s).1.sending = s.sending.filter (fun x => decide (x.page ≠ id)) ∧
    (returnPages [id] s).1.out =
      (if (s.sending.filter fun x => decide (x.page = id)).isSome then s.out ++ [.bandAborted] else s.out) ∧
    (returnPages [id] s).1.page? id = some { p with
      state := .replay, attempt := p.attempt + 1, sendLog := [], spoiled := false
      bands := p.bands.map fun r => if r.state = .sent ∨ r.state = .sentNot then { r with state := .composed } else r } ∧
    id ∉ (returnPages [id] s).1.path ∧
    (∀ slot, (returnPages [id] s).1.offer = some slot → slot.page ≠ id) ∧
    (returnPages [id] s).1.freeBuffers = s.freeBuffers ∧ (returnPages [id] s).1.entries = s.entries

/-! ## Ends and expiries -/

/-- A band's composition completes: its record becomes COMPOSED, or SENT marked not sent where a filler has stood for it and the page
is still printing or in the path; the first-composition count follows the bands; the compositor is FREE (R119). The
pixels stand in the buffers at the completion (log entry 22), and where no band is being composed nothing happens (log entry 14):
the model's choices. -/
def Obligations.BandComplete : Prop :=
  ∀ s : State, s.inReset = false →
    (∀ item need p r, s.compositor = .busy item need → s.page? item.page = some p → p.band? item.band = some r →
      exec .bandCompositionComplete s = .next (follow { s.cleared with
        compositor := .free
        store := writeBand s p r
        pages := replaceFirst (fun q => q.id = p.id)
          { p with
            bands := p.bands.map fun x => if x.index = item.band then
              { x with state := if p.mark item.band = .filler ∧ (p.state = .printing ∨ p.state = .inPath) then .sentNot
                                else .composed } else x
            firstCount := if item.band = p.firstCount then p.firstCount + 1 else p.firstCount } s.pages })) ∧
    ((∀ item need, s.compositor ≠ .busy item need) → exec .bandCompositionComplete s = .next (follow s.cleared))

/-- The last byte of a band message leaves the port: a real band is retained within the limit of 64 buffers or its record
goes, a filler changes no record, and the page of the last band passes from the offer slot to the path list (R139, R140, R154). Where none is leaving
nothing happens (log entry 14: the model's choice). -/
def Obligations.SendingEnd : Prop :=
  ∀ s : State, s.inReset = false →
    (s.sending = none → exec .bandSendingEnd s = .next (follow s.cleared)) ∧
    (∀ x p t r, s.sending = some x → x.real = true → s.page? x.page = some p → s.templateOf p = some t →
      p.band? x.band = some r →
      let ended : State := { s.cleared with sending := none, out := [.bandEnd] }
      let kept := p.kept + r.buffers.length ≤ 64
      let p' : Machine.Page := { p with
        bands := if kept then p.bands.map fun y => if y.index = x.band then { y with state := .sent } else y
                 else removeFirst (fun y => y.index = x.band) p.bands }
      let u : State := if kept then ended else freeBandBuffers r.buffers ended
      (x.band + 1 ≠ t.bandCount →
        exec .bandSendingEnd s = .next (follow { u with
          pages := replaceFirst (fun q => q.id = p.id) p' s.pages })) ∧
      (x.band + 1 = t.bandCount → s.offer = some { page := x.page, printing := true } →
        exec .bandSendingEnd s = .next (follow { u with
          pages := replaceFirst (fun q => q.id = p.id) { p' with state := .inPath } s.pages
          offer := none
          cursor := none
          path := s.path ++ [x.page] }))) ∧
    ∀ x p t, s.sending = some x → x.real = false → s.page? x.page = some p → s.templateOf p = some t →
      let ended : State := { s.cleared with sending := none, out := [.bandEnd] }
      (x.band + 1 ≠ t.bandCount → exec .bandSendingEnd s = .next (follow ended)) ∧
      (x.band + 1 = t.bandCount → s.offer = some { page := x.page, printing := true } →
        exec .bandSendingEnd s = .next (follow { ended with
          pages := replaceFirst (fun q => q.id = p.id) { p with state := .inPath } s.pages
          offer := none
          cursor := none
          path := s.path ++ [x.page] }))

/-- The transfer of a return record ends: the return channel is IDLE and the release rule is applied (R168). Where none is in
progress nothing happens (log entry 14: the model's choice). -/
def Obligations.TransferEnd : Prop :=
  ∀ s : State, s.inReset = false →
    (s.returnChannel = none → exec .returnTransferEnd s = .next (follow s.cleared)) ∧
    ∀ t, s.returnChannel = some t →
      exec .returnTransferEnd s = .next (follow (releaseRule { s.cleared with returnChannel := none, out := [.returnEnd] }))

/-- The stall limit of a waiting record expires: the record is counted as discarded and its bytes leave the buffer, its entry
goes, STALL-DISCARD is posted with the cause LIMIT, and a PORTRAIT HEAD leaves its channel's binding SKIP with its key (R16, R17). A
channel that waits for nothing is left (log entry 14), the clock stands at the limit or past it (log entry 2), and the notice of a
record too short for its identifier has the subject 0 (log entry 8): the model's choices. -/
def Obligations.StallExpiry : Prop :=
  ∀ (ch : Chan) (s : State), s.inReset = false →
    (s.waitOf ch = none → exec (.stallLimitExpiry ch) s = .next (follow s.cleared)) ∧
    ∀ e, s.waitOf ch = some e →
      let b := s.chans[ch].front
      let t := wakeUp (notify .stallDiscard (recTag b) (recSubject b)
        [.two ch, .two (recKindCode b), .two e.kind.code, .two 1]
        (modChan ch (fun c => { c with discarded := bump c.discarded })
          { s.cleared with now := max s.now (e.start + s.stallLimit * 10)
                           waiting := s.waiting.filter (·.ch ≠ ch) }))
      (recKind b = some .portraitHead → 12 ≤ b.length →
        exec (.stallLimitExpiry ch) s =
          .next (follow (dropFront ch b.length (setBinding ch (.skipping (field b 8 4)) t)))) ∧
      (recKind b ≠ some .portraitHead →
        exec (.stallLimitExpiry ch) s = .next (follow (dropFront ch b.length t)))

/-- A hold expiry sets the start permit of the page in GATHERING whose timer runs and can expire; a gate expiry applies the
release rule at the time the class's interval ends (R96, R167, R168). Where no such timer runs nothing happens (log entry 14),
and the clock stands at the expiry or past it (log entry 2). -/
def Obligations.TimersExpire : Prop :=
  (∀ s : State, s.inReset = false →
    (s.gatheringPage = none → exec .holdExpiry s = .next (follow s.cleared)) ∧
    ∀ p, s.gatheringPage = some p →
      (∀ start, p.timer = .running start → p.hold ≠ 65535 →
        exec .holdExpiry s = .next (follow { s.cleared with
          now := max s.now (start + p.hold * 10)
          pages := replaceFirst (fun q => q.id = p.id) { p with permit := true, timer := .expired } s.pages })) ∧
      (p.hold = 65535 ∨ p.timer = .notStarted ∨ p.timer = .expired →
        exec .holdExpiry s = .next (follow s.cleared))) ∧
  ∀ (cls : NoticeClass) (s : State), s.inReset = false →
    (s.gates[classIndex cls].last = none → exec (.gateExpiry cls) s = .next (follow s.cleared)) ∧
    ∀ t, s.gates[classIndex cls].last = some t →
      exec (.gateExpiry cls) s =
        .next (follow (releaseRule { s.cleared with now := max s.now (t + s.gates[classIndex cls].interval) }))

/-! ## What is computed -/

/-- The luminance of a pixel (R62). -/
def Obligations.Luminance : Prop :=
  ∀ r g b : Byte, luminance r g b = (77 * r.toNat + 150 * g.toNat + 29 * b.toNat + 128) / 256 ∧ luminance r g b ≤ 255

/-- A measured gain is the nearest 1,024th to target over mean, half way up, within 512 to 2,048, and 2,048 for a mean of 0
(R68); a corrected value is rounded half up and saturates, keeps the order of the source values, and is the source value at
gain 1,024, and the three channels of a pixel are corrected separately (R71). -/
def Obligations.GainsCorrect : Prop :=
  (∀ target, measuredGain target 0 = 2048) ∧
  (∀ target mean, 1 ≤ mean →
    512 ≤ measuredGain target mean ∧ measuredGain target mean ≤ 2048 ∧
    (512 < measuredGain target mean → 2 * mean * measuredGain target mean ≤ 2 * target * 1024 + mean) ∧
    (measuredGain target mean < 2048 → 2 * target * 1024 + mean < 2 * mean * (measuredGain target mean + 1))) ∧
  (∀ (gain : Nat) (src : Byte), (applyGain gain src).toNat = min 255 ((src.toNat * gain + 512) / 1024)) ∧
  (∀ src : Byte, applyGain 1024 src = src) ∧
  (∀ (gain : Nat) (a b : Byte), a.toNat ≤ b.toNat → (applyGain gain a).toNat ≤ (applyGain gain b).toNat) ∧
  ∀ (gain : Nat) (p : Rgb), correctPixel gain p =
    { r := applyGain gain p.r, g := applyGain gain p.g, b := applyGain gain p.b }

/-- The face window: each value as the two tables compute it; the window lies inside the image, holds at least one pixel,
whatever the fields, and is kept as it stands where it lies inside (R63); where a size field is 0 it is the central half, at
least 8 each way (R64). -/
def Obligations.FaceWindowInside : Prop :=
  ∀ sw sh x y w h, 16 ≤ sw → 16 ≤ sh →
    let win := faceWindow sw sh x y w h
    1 ≤ win.w ∧ 1 ≤ win.h ∧ win.x + win.w ≤ sw ∧ win.y + win.h ≤ sh ∧
    (w ≠ 0 → h ≠ 0 → win.x = min x (sw - 1) ∧ win.y = min y (sh - 1) ∧ win.w = min w (sw - win.x) ∧
      win.h = min h (sh - win.y)) ∧
    (w ≠ 0 → h ≠ 0 → x + w ≤ sw → y + h ≤ sh → win = { x := x, y := y, w := w, h := h }) ∧
    (w = 0 ∨ h = 0 → win = { x := sw / 4, y := sh / 4, w := sw / 2, h := sh / 2 } ∧ 8 ≤ win.w ∧ 8 ≤ win.h)

/-- What the cast list captures of a cell: EMPTY for key 0, PLACEHOLDER-MISSING where the key has no entry or no current version,
PLACEHOLDER-WITHHELD where its photo is withheld, whatever versions it has, and else PORTRAIT with the current version's number
and the scaler's parameters for its size and the cell's clipped rectangle; and the name as text where there is one that is not
withheld (R100). The scaler fits a portrait in its cell: the displayed area and its margins lie inside the cell, every sampled column and
line lies inside the source, and no more than a doubling is made (R124, R125). -/
def Obligations.ScalerInside : Prop :=
  (∀ (s : State) (b : TemplateBuffer) (cell key : Nat), captureCell s b cell key =
    { cell := cell, key := key
      content :=
        match (if key = 0 then none else s.entry? key) with
        | none => if key = 0 then .empty else .missing
        | some e =>
          if e.withholdPhoto then .withheld
          else
            match e.current, b.bandIndex.find? (fun k => k.kind = .portrait cell) with
            | some v, some k => .portrait v.number (scalerFor v.width v.height k.rect.w k.rect.h)
            | _, _ => .missing
      text := ((if key = 0 then none else s.entry? key).filter (fun e => !e.withholdName)).bind (·.name) }) ∧
  ∀ sw sh cw ch, 16 ≤ sw → 16 ≤ sh → 1 ≤ cw → 1 ≤ ch →
    let p := scalerFor sw sh cw ch
    32768 ≤ p.step ∧ 1 ≤ p.dw ∧ 1 ≤ p.dh ∧ p.mx + p.dw ≤ cw ∧ p.my + p.dh ≤ ch ∧
    (∀ i, i < p.dw → p.column i < sw) ∧ (∀ j, j < p.dh → p.line j < sh) ∧
    (∀ i, p.column i ≤ p.column (i + 1)) ∧
    (p.undersized = true ↔ 2 * sw < cw ∨ 2 * sh < ch)

/-- The bands of a legal template cover the page's lines once, each with at least one line; a band is within its buffers, which
are two exactly where one does not hold it (R75, R114). -/
def Obligations.BandsCover : Prop :=
  ∀ t : TemplateBuffer, t.Legal →
    ((List.range t.bandCount).map t.bandLines).sum = t.height ∧
    (∀ b, b < t.bandCount → 1 ≤ t.bandLines b ∧ t.bandLines b ≤ t.bandHeight ∧
      b * t.bandHeight + t.bandLines b ≤ t.height) ∧
    (t.need = 1 ∨ t.need = 2) ∧ (t.need = 2 ↔ 1048576 < t.width * t.bandHeight * 3) ∧
    t.width * t.bandHeight * 3 ≤ t.need * 1048576

/-- The walk of a band index in order finds exactly the slots that intersect the band, and a settled template's band index is
in order: by top line, then by slot index (R79). -/
def Obligations.BandWalk : Prop :=
  (∀ (t : TemplateBuffer) (b : Nat), t.bandIndex.Pairwise (fun x y => x.rect.y ≤ y.rect.y) →
    ∀ k, k ∈ t.bandSlots b ↔
      k ∈ t.bandIndex ∧ k.rect.y < (b + 1) * t.bandHeight ∧ b * t.bandHeight < k.rect.y + k.rect.h) ∧
  ∀ bytes : List Byte, (settleTemplate bytes).buffer.bandIndex.Pairwise fun x y =>
    x.rect.y < y.rect.y ∨ (x.rect.y = y.rect.y ∧ x.index ≤ y.index)

/-- A band's pixel is the background where no slot of the band covers it, and the fill colour where a FILL slot covers it and
no covering slot of the band has a greater slot index (R121). -/
def Obligations.LastSlotPaints : Prop :=
  ∀ (s : State) (t : TemplateBuffer) (cast : Cast) (b col line : Nat),
    ((∀ k ∈ t.bandSlots b, k.rect.covers col line = false) → bandPixel s t cast b col line = t.background) ∧
    ∀ k colour, k ∈ t.bandSlots b → k.rect.covers col line = true → k.kind = .fill colour →
      (∀ k' ∈ t.bandSlots b, k'.rect.covers col line = true → k' = k ∨ k'.index < k.index) →
      bandPixel s t cast b col line = colour

/-- The prefix that a CLIPPED caption sets fits the slot's width, and every longer one is wider (R126, R128). A caption is WHOLE in
the first font, preferred first, that fits it whole; else it is CLIPPED to that prefix in the first whose height fits, with at
least one character; else it is OMITTED. Either is placed by the slot's alignment, midway between top and bottom (R127 to R129). A
CAPTION slot sets the text of the cell it pairs, a TITLE slot the page's title, and a record without text has no layout (R101,
R130). -/
def Obligations.LongestPrefixFits : Prop :=
  (∀ (f : Machine.Font) (m : FontMetrics) (text : List Byte) (w : Nat),
    let n := longestFit f m text w text.length
    n ≤ text.length ∧ (1 ≤ n → textWidth f m (text.take n) ≤ w) ∧
    ∀ k, n < k → k ≤ text.length → w < textWidth f m (text.take k)) ∧
  (∀ (fonts : Vector Machine.Font 2) (r : Rect) (preferred : Fin 2) (a : Align) (text : List Byte),
    let high (f : Fin 2) (m : FontMetrics) : Prop := fonts[f].metrics = some m ∧ m.height ≤ r.h
    let whole (f : Fin 2) (m : FontMetrics) : Prop := high f m ∧ textWidth fonts[f] m text ≤ r.w
    let placed (f : Fin 2) (m : FontMetrics) (n x y tw : Nat) : Prop :=
      tw = textWidth fonts[f] m (text.take n) ∧ tw ≤ r.w ∧ y = r.y + (r.h - m.height) / 2 ∧
      x = match a with
        | .left => r.x
        | .centre => r.x + (r.w - tw) / 2
        | .right => r.x + r.w - tw
    match captionLayout fonts r preferred a text with
    | .set false f n x y tw => n = text.length ∧ (f = preferred ∨ ∀ m, ¬ whole preferred m) ∧
      ∃ m, whole f m ∧ placed f m n x y tw
    | .set true f n x y tw => (∀ g m, ¬ whole g m) ∧ (f = preferred ∨ ∀ m, ¬ high preferred m) ∧ 1 ≤ n ∧ n < text.length ∧
      ∃ m, high f m ∧ placed f m n x y tw ∧
        ∀ k, n < k → k ≤ text.length → r.w < textWidth fonts[f] m (text.take k)
    | .omitted => (∀ g m, ¬ whole g m) ∧ ((∀ g m, ¬ high g m) ∨
      ∃ f m, high f m ∧ (f = preferred ∨ ∀ m', ¬ high preferred m') ∧
        ∀ k, 1 ≤ k → k ≤ text.length → r.w < textWidth fonts[f] m (text.take k))) ∧
  ∀ (s : State) (cells : List CastRecord) (title : Option (List Byte)) (k : Slot),
    let record (text : Option (List Byte)) (font : Fin 2) (align : Align) : Option CaptionRecord :=
      some { slot := k.index, text := text, layout := text.map (captionLayout s.fonts k.rect font align) }
    captureCaption s cells title k =
      match k.kind with
      | .caption paired font align => record ((cells.find? (·.cell = paired)).bind (·.text)) font align
      | .title font align => record title font align
      | .fill _ => none
      | .portrait _ => none

/-- Bytes written to the frame store read back, every other address reads as before, and reading a run of addresses is
reading each (R41, R133). -/
def Obligations.StoreReadsBack : Prop :=
  (∀ (m : List Host.Cell) (a : Nat) (bytes : List Byte) (x : Nat), storeWf m = true →
    readByte (writeBytes m a bytes) x =
      if a ≤ x ∧ x < a + bytes.length then (bytes[x - a]?).getD 0 else readByte m x) ∧
  ∀ (n a : Nat) (m : List Host.Cell), storeWf m = true → readFrom n a m = (List.range' a n).map (readByte m)

/-- A well-formed frame, record and press message read back as what was sent: the frame with its channel, flag and payload; the
record with its command's kind code, its tag, its length, flags of 0, every field of its layout and what follows them, the slots of a
TEMPLATE and the keys of a PAGE among them; the message with its type and page id (R1, R6, R179, R182). -/
def Obligations.WireReadsBack : Prop :=
  (∀ (ch : Chan) (sync : Bool) (payload : List Byte), (Instr.linkFrame ch sync payload).wf = true →
    decodeForwardFrame (linkFrameBytes ch sync payload) = some (.linkFrame ch sync payload)) ∧
  (∀ id, id < 65536 → decodePressMessage (pressBytes 17 id) = some (.start id) ∧
    decodePressMessage (pressBytes 18 id) = some .demand ∧ decodePressMessage (pressBytes 19 id) = some (.done id) ∧
    decodePressMessage (pressBytes 20 id) = some (.fault id) ∧ decodePressMessage (pressBytes 21 id) = some .restart ∧
    ∀ type, (Instr.badMessage type id).wf = true →
      decodePressMessage (pressBytes type id) = some (.badMessage type id)) ∧
  (∀ (c : Instr) (ch : Chan) (b : List Byte), c.wf = true → c.wireRecord = some (ch, b) →
    ∃ form, recordForm c = some form ∧ recKindCode b = form.kind ∧ recTag b = form.tag ∧
      (∀ f ∈ form.fields, field b f.1 f.2.1 = f.2.2) ∧ b.drop form.rest.1 = form.rest.2) ∧
  (∀ (ch : Chan) (tag number width height bandHeight : Nat) (background placeholder ink : Rgb) (slots : List SlotFields),
    (Instr.template ch tag number width height bandHeight background placeholder ink slots).wf = true →
    ∀ i f, slots[i]? = some f →
      slotAt (templateRecord tag number width height bandHeight background placeholder ink slots) i = f) ∧
  (∀ (ch : Chan) (tag pageId hold jobId number attempts : Nat) (title : List Byte) (keys : List Nat),
    (Instr.page ch tag pageId hold jobId number attempts title keys).wf = true →
    pageKeys (pageRecord tag pageId hold jobId number attempts title keys) = keys) ∧
  ∀ (c : Instr) (ch : Chan) (b : List Byte), c.wf = true → c.wireRecord = some (ch, b) →
    8 ≤ b.length ∧ b.length ≤ 4096 ∧ recLength b = b.length ∧ recFlags b = 0 ∧
    ((∃ kind body, c = .unknownKind ch kind (recTag b) body ∧ recKindCode b = kind ∧ decoderCheck b = .error .unknownKind) ∨
      ∃ kind : RecordKind, decoderCheck b = .ok kind ∧ recKindCode b = kind.code ∧ kind.fixedPart ≤ b.length)

/-! ## What every step keeps -/

/-- Every step keeps the frame store in its canonical form (log entry 6). -/
def Obligations.StepKeepsStoreForm : Prop :=
  ∀ s t : State, StoreCanonical s → step s = .next t → StoreCanonical t

/-- Every step keeps the return queue within 64 entries, 56 of them notices, and no channel twice in the waiting list (1.7, R164).
No record that its owner takes passes a record of another channel that waits for the same resource kind and stands before its own
entry (R13). An examination is one walk from the oldest entry to the youngest (R15): an entry whose kind has been noted is passed
over; a record taken is counted, leaves the list and its buffer; a record refused is reported and does the same; a record
deferred again keeps its entry with the kind now named, which is noted. The order within one event is the model's choice (log entry
15). -/
def Obligations.StepKeepsQueues : Prop :=
  (∀ s t : State, QueueBounded s → WaitingDistinct s → step s = .next t → QueueBounded t ∧ WaitingDistinct t) ∧
  (∀ (ch : Chan) (kind : Resource) (s : State), s.olderWaiter ch kind = true ↔
    ∃ before e after, s.waiting = before ++ e :: after ∧ e.kind = kind ∧ e.ch ≠ ch ∧ ∀ x ∈ before, x.ch ≠ ch) ∧
  (∀ (ch : Chan) (b : List Byte) (s t : State),
    (judgeJobOpen ch b s = .taken t → s.olderWaiter ch .jobSlot = false) ∧
    (judgeRoster ch b s = .taken t → s.entry? (field b 8 4) = none → s.olderWaiter ch .entry = false) ∧
    (judgeHead ch b s = .taken t → s.olderWaiter ch .blocks = false ∧
      match s.entry? (field b 8 4) with
      | none => s.olderWaiter ch .entry = false
      | some e => s.olderWaiter ch (.incomingRole (field b 8 4)) = false ∧
        (e.current.isSome → s.olderWaiter ch (.retiringRole (field b 8 4)) = false)) ∧
    (judgeTemplate ch b s = .taken t → s.olderWaiter ch .templateBuffer = false) ∧
    (judgeFont ch b s = .taken t → s.olderWaiter ch .fontLock = false) ∧
    (judgeGlyph ch b s = .taken t → s.olderWaiter ch .fontLock = false) ∧
    (judgePage ch b s = .taken t → s.olderWaiter ch .pageSlot = false) ∧
    (judgeQuery ch b s = .taken t → s.olderWaiter ch .returnSpace = false)) ∧
  (∀ s : State, examine s = ((s.waiting.map (·.ch)).foldl examineEntry ([], { s with wake := false })).2) ∧
  ∀ (noted : List Resource) (ch : Chan) (s : State),
    match s.waitOf ch with
    | none => examineEntry (noted, s) ch = (noted, s)
    | some e =>
      let b := s.chans[ch].front
      if e.kind ∈ noted then examineEntry (noted, s) ch = (noted, s)
      else
        examineEntry (noted, s) ch =
          match judgeRecord ch b s with
          | .taken t => (noted, pump (judgeStore (recTag b) (dropFront ch b.length
              (State.counted ch { t with waiting := t.waiting.filter (·.ch ≠ ch) }))))
          | .refused reason extra => (noted, pump (judgeStore (recTag b) (dropFront ch b.length (skipRefusedHead ch b
              (State.refusedOn ch (recTag b) (recSubject b) (recKindCode b) reason extra
                { s with waiting := s.waiting.filter (·.ch ≠ ch) })))))
          | .deferred kind => (kind :: noted, pump (judgeStore (recTag b)
              { s with waiting := s.waiting.map fun x => if x.ch = ch then { x with kind := kind } else x }))

/-- Every step whose pending commands are well formed keeps every channel legal: its buffer within its size, RESYNC with an
empty buffer and no binding, the watermark in its range, the counters within 32 bits (1.1, R1, R2, R4, R5, R18). -/
def Obligations.StepKeepsChannels : Prop :=
  ∀ s t : State, (∀ c ∈ s.pending, c.wf = true) → ChannelsLegal s → step s = .next t → ChannelsLegal t

/-- Every step keeps every ready indication at its level (R2). -/
def Obligations.StepKeepsReady : Prop :=
  ∀ s t : State, ReadyJudged s → step s = .next t → ReadyJudged t

/-- Every step keeps the settings in their ranges, and the loaded templates and fonts in theirs (R75, R85, R175). -/
def Obligations.StepKeepsSettings : Prop :=
  ∀ s t : State, SettingsLegal s → TablesLegal s → step s = .next t → SettingsLegal t ∧ TablesLegal t

/-- Every step keeps the job table: at most 8 live jobs, distinct ids, disjoint windows of nonzero keys (2.1, R22). -/
def Obligations.StepKeepsJobs : Prop :=
  ∀ s t : State, JobsLegal s → step s = .next t → JobsLegal t

/-- Every step keeps the directory: at most 1,024 entries, distinct keys, cleaned names, and a gain of 512 to 2,048 in every
complete version (2.3, R31, R70). -/
def Obligations.StepKeepsDirectory : Prop :=
  ∀ s t : State, EntriesLegal s → GainsLegal s → step s = .next t → EntriesLegal t ∧ GainsLegal t

/-- Every step keeps the balance of the block pool: the free blocks and those of all versions are 229,376 (R40). -/
def Obligations.StepKeepsBlocks : Prop :=
  ∀ s t : State, BlocksBalance s → step s = .next t → BlocksBalance t

/-- Every step keeps the page queue: distinct ids, the bounds of its records, at most one page in GATHERING, and the balance of
the band area: the free buffers and those of all band records are 128 (6, R91, R92, R95, R106, R133). -/
def Obligations.StepKeepsPages : Prop :=
  ∀ s t : State, PageIdsDistinct s → BuffersBalance s → PagesLegal s → step s = .next t →
    PageIdsDistinct t ∧ BuffersBalance t ∧ PagesLegal t

/-- Every step keeps at most 4 pages in the path list and the offer slot together, and at most 8 ids in the purge list
(R147, R150, R161). -/
def Obligations.StepKeepsHead : Prop :=
  ∀ s t : State, HeadBounded s → step s = .next t → HeadBounded t

/-- After every step the store low state agrees with the free count (R55, R56). -/
def Obligations.StepJudgesStore : Prop :=
  ∀ s t : State, SettingsLegal s → StoreJudged s → step s = .next t → StoreJudged t
end

