-- ==== Sys2Proof/Laws/State.lean ====
section
/-! SUPPORT. Each plain update of the state leaves every other field as it was: one lemma for each field and update. -/

namespace Sys2Proof.Machine

@[simp] theorem emit_pending (o : Output) (s : State) : (emit o s).pending = s.pending := rfl
@[simp] theorem emit_order (o : Output) (s : State) : (emit o s).order = s.order := rfl
@[simp] theorem emit_now (o : Output) (s : State) : (emit o s).now = s.now := rfl
@[simp] theorem emit_wake (o : Output) (s : State) : (emit o s).wake = s.wake := rfl
@[simp] theorem emit_inReset (o : Output) (s : State) : (emit o s).inReset = s.inReset := rfl
@[simp] theorem emit_chans (o : Output) (s : State) : (emit o s).chans = s.chans := rfl
@[simp] theorem emit_waiting (o : Output) (s : State) : (emit o s).waiting = s.waiting := rfl
@[simp] theorem emit_stallLimit (o : Output) (s : State) : (emit o s).stallLimit = s.stallLimit := rfl
@[simp] theorem emit_jobs (o : Output) (s : State) : (emit o s).jobs = s.jobs := rfl
@[simp] theorem emit_entries (o : Output) (s : State) : (emit o s).entries = s.entries := rfl
@[simp] theorem emit_freeBlocks (o : Output) (s : State) : (emit o s).freeBlocks = s.freeBlocks := rfl
@[simp] theorem emit_storeLow (o : Output) (s : State) : (emit o s).storeLow = s.storeLow := rfl
@[simp] theorem emit_lowMark (o : Output) (s : State) : (emit o s).lowMark = s.lowMark := rfl
@[simp] theorem emit_lowSeen (o : Output) (s : State) : (emit o s).lowSeen = s.lowSeen := rfl
@[simp] theorem emit_globalTarget (o : Output) (s : State) : (emit o s).globalTarget = s.globalTarget := rfl
@[simp] theorem emit_store (o : Output) (s : State) : (emit o s).store = s.store := rfl
@[simp] theorem emit_templates (o : Output) (s : State) : (emit o s).templates = s.templates := rfl
@[simp] theorem emit_fonts (o : Output) (s : State) : (emit o s).fonts = s.fonts := rfl
@[simp] theorem emit_pages (o : Output) (s : State) : (emit o s).pages = s.pages := rfl
@[simp] theorem emit_compositor (o : Output) (s : State) : (emit o s).compositor = s.compositor := rfl
@[simp] theorem emit_freeBuffers (o : Output) (s : State) : (emit o s).freeBuffers = s.freeBuffers := rfl
@[simp] theorem emit_lead (o : Output) (s : State) : (emit o s).lead = s.lead := rfl
@[simp] theorem emit_offer (o : Output) (s : State) : (emit o s).offer = s.offer := rfl
@[simp] theorem emit_path (o : Output) (s : State) : (emit o s).path = s.path := rfl
@[simp] theorem emit_cursor (o : Output) (s : State) : (emit o s).cursor = s.cursor := rfl
@[simp] theorem emit_sending (o : Output) (s : State) : (emit o s).sending = s.sending := rfl
@[simp] theorem emit_purge (o : Output) (s : State) : (emit o s).purge = s.purge := rfl
@[simp] theorem emit_headCounters (o : Output) (s : State) : (emit o s).headCounters = s.headCounters := rfl
@[simp] theorem emit_returnQueue (o : Output) (s : State) : (emit o s).returnQueue = s.returnQueue := rfl
@[simp] theorem emit_gates (o : Output) (s : State) : (emit o s).gates = s.gates := rfl
@[simp] theorem emit_returnChannel (o : Output) (s : State) : (emit o s).returnChannel = s.returnChannel := rfl

@[simp] theorem wakeUp_pending (s : State) : (wakeUp s).pending = s.pending := rfl
@[simp] theorem wakeUp_order (s : State) : (wakeUp s).order = s.order := rfl
@[simp] theorem wakeUp_now (s : State) : (wakeUp s).now = s.now := rfl
@[simp] theorem wakeUp_out (s : State) : (wakeUp s).out = s.out := rfl
@[simp] theorem wakeUp_inReset (s : State) : (wakeUp s).inReset = s.inReset := rfl
@[simp] theorem wakeUp_chans (s : State) : (wakeUp s).chans = s.chans := rfl
@[simp] theorem wakeUp_waiting (s : State) : (wakeUp s).waiting = s.waiting := rfl
@[simp] theorem wakeUp_stallLimit (s : State) : (wakeUp s).stallLimit = s.stallLimit := rfl
@[simp] theorem wakeUp_jobs (s : State) : (wakeUp s).jobs = s.jobs := rfl
@[simp] theorem wakeUp_entries (s : State) : (wakeUp s).entries = s.entries := rfl
@[simp] theorem wakeUp_freeBlocks (s : State) : (wakeUp s).freeBlocks = s.freeBlocks := rfl
@[simp] theorem wakeUp_storeLow (s : State) : (wakeUp s).storeLow = s.storeLow := rfl
@[simp] theorem wakeUp_lowMark (s : State) : (wakeUp s).lowMark = s.lowMark := rfl
@[simp] theorem wakeUp_lowSeen (s : State) : (wakeUp s).lowSeen = s.lowSeen := rfl
@[simp] theorem wakeUp_globalTarget (s : State) : (wakeUp s).globalTarget = s.globalTarget := rfl
@[simp] theorem wakeUp_store (s : State) : (wakeUp s).store = s.store := rfl
@[simp] theorem wakeUp_templates (s : State) : (wakeUp s).templates = s.templates := rfl
@[simp] theorem wakeUp_fonts (s : State) : (wakeUp s).fonts = s.fonts := rfl
@[simp] theorem wakeUp_pages (s : State) : (wakeUp s).pages = s.pages := rfl
@[simp] theorem wakeUp_compositor (s : State) : (wakeUp s).compositor = s.compositor := rfl
@[simp] theorem wakeUp_freeBuffers (s : State) : (wakeUp s).freeBuffers = s.freeBuffers := rfl
@[simp] theorem wakeUp_lead (s : State) : (wakeUp s).lead = s.lead := rfl
@[simp] theorem wakeUp_offer (s : State) : (wakeUp s).offer = s.offer := rfl
@[simp] theorem wakeUp_path (s : State) : (wakeUp s).path = s.path := rfl
@[simp] theorem wakeUp_cursor (s : State) : (wakeUp s).cursor = s.cursor := rfl
@[simp] theorem wakeUp_sending (s : State) : (wakeUp s).sending = s.sending := rfl
@[simp] theorem wakeUp_purge (s : State) : (wakeUp s).purge = s.purge := rfl
@[simp] theorem wakeUp_headCounters (s : State) : (wakeUp s).headCounters = s.headCounters := rfl
@[simp] theorem wakeUp_returnQueue (s : State) : (wakeUp s).returnQueue = s.returnQueue := rfl
@[simp] theorem wakeUp_gates (s : State) : (wakeUp s).gates = s.gates := rfl
@[simp] theorem wakeUp_returnChannel (s : State) : (wakeUp s).returnChannel = s.returnChannel := rfl

@[simp] theorem modChan_pending (ch : Chan) (f : Channel → Channel) (s : State) : (modChan ch f s).pending = s.pending := rfl
@[simp] theorem modChan_order (ch : Chan) (f : Channel → Channel) (s : State) : (modChan ch f s).order = s.order := rfl
@[simp] theorem modChan_now (ch : Chan) (f : Channel → Channel) (s : State) : (modChan ch f s).now = s.now := rfl
@[simp] theorem modChan_wake (ch : Chan) (f : Channel → Channel) (s : State) : (modChan ch f s).wake = s.wake := rfl
@[simp] theorem modChan_out (ch : Chan) (f : Channel → Channel) (s : State) : (modChan ch f s).out = s.out := rfl
@[simp] theorem modChan_inReset (ch : Chan) (f : Channel → Channel) (s : State) : (modChan ch f s).inReset = s.inReset := rfl
@[simp] theorem modChan_waiting (ch : Chan) (f : Channel → Channel) (s : State) : (modChan ch f s).waiting = s.waiting := rfl
@[simp] theorem modChan_stallLimit (ch : Chan) (f : Channel → Channel) (s : State) : (modChan ch f s).stallLimit = s.stallLimit := rfl
@[simp] theorem modChan_jobs (ch : Chan) (f : Channel → Channel) (s : State) : (modChan ch f s).jobs = s.jobs := rfl
@[simp] theorem modChan_entries (ch : Chan) (f : Channel → Channel) (s : State) : (modChan ch f s).entries = s.entries := rfl
@[simp] theorem modChan_freeBlocks (ch : Chan) (f : Channel → Channel) (s : State) : (modChan ch f s).freeBlocks = s.freeBlocks := rfl
@[simp] theorem modChan_storeLow (ch : Chan) (f : Channel → Channel) (s : State) : (modChan ch f s).storeLow = s.storeLow := rfl
@[simp] theorem modChan_lowMark (ch : Chan) (f : Channel → Channel) (s : State) : (modChan ch f s).lowMark = s.lowMark := rfl
@[simp] theorem modChan_lowSeen (ch : Chan) (f : Channel → Channel) (s : State) : (modChan ch f s).lowSeen = s.lowSeen := rfl
@[simp] theorem modChan_globalTarget (ch : Chan) (f : Channel → Channel) (s : State) : (modChan ch f s).globalTarget = s.globalTarget := rfl
@[simp] theorem modChan_store (ch : Chan) (f : Channel → Channel) (s : State) : (modChan ch f s).store = s.store := rfl
@[simp] theorem modChan_templates (ch : Chan) (f : Channel → Channel) (s : State) : (modChan ch f s).templates = s.templates := rfl
@[simp] theorem modChan_fonts (ch : Chan) (f : Channel → Channel) (s : State) : (modChan ch f s).fonts = s.fonts := rfl
@[simp] theorem modChan_pages (ch : Chan) (f : Channel → Channel) (s : State) : (modChan ch f s).pages = s.pages := rfl
@[simp] theorem modChan_compositor (ch : Chan) (f : Channel → Channel) (s : State) : (modChan ch f s).compositor = s.compositor := rfl
@[simp] theorem modChan_freeBuffers (ch : Chan) (f : Channel → Channel) (s : State) : (modChan ch f s).freeBuffers = s.freeBuffers := rfl
@[simp] theorem modChan_lead (ch : Chan) (f : Channel → Channel) (s : State) : (modChan ch f s).lead = s.lead := rfl
@[simp] theorem modChan_offer (ch : Chan) (f : Channel → Channel) (s : State) : (modChan ch f s).offer = s.offer := rfl
@[simp] theorem modChan_path (ch : Chan) (f : Channel → Channel) (s : State) : (modChan ch f s).path = s.path := rfl
@[simp] theorem modChan_cursor (ch : Chan) (f : Channel → Channel) (s : State) : (modChan ch f s).cursor = s.cursor := rfl
@[simp] theorem modChan_sending (ch : Chan) (f : Channel → Channel) (s : State) : (modChan ch f s).sending = s.sending := rfl
@[simp] theorem modChan_purge (ch : Chan) (f : Channel → Channel) (s : State) : (modChan ch f s).purge = s.purge := rfl
@[simp] theorem modChan_headCounters (ch : Chan) (f : Channel → Channel) (s : State) : (modChan ch f s).headCounters = s.headCounters := rfl
@[simp] theorem modChan_returnQueue (ch : Chan) (f : Channel → Channel) (s : State) : (modChan ch f s).returnQueue = s.returnQueue := rfl
@[simp] theorem modChan_gates (ch : Chan) (f : Channel → Channel) (s : State) : (modChan ch f s).gates = s.gates := rfl
@[simp] theorem modChan_returnChannel (ch : Chan) (f : Channel → Channel) (s : State) : (modChan ch f s).returnChannel = s.returnChannel := rfl

@[simp] theorem setBinding_pending (ch : Chan) (b : Binding) (s : State) : (setBinding ch b s).pending = s.pending := rfl
@[simp] theorem setBinding_order (ch : Chan) (b : Binding) (s : State) : (setBinding ch b s).order = s.order := rfl
@[simp] theorem setBinding_now (ch : Chan) (b : Binding) (s : State) : (setBinding ch b s).now = s.now := rfl
@[simp] theorem setBinding_wake (ch : Chan) (b : Binding) (s : State) : (setBinding ch b s).wake = s.wake := rfl
@[simp] theorem setBinding_out (ch : Chan) (b : Binding) (s : State) : (setBinding ch b s).out = s.out := rfl
@[simp] theorem setBinding_inReset (ch : Chan) (b : Binding) (s : State) : (setBinding ch b s).inReset = s.inReset := rfl
@[simp] theorem setBinding_waiting (ch : Chan) (b : Binding) (s : State) : (setBinding ch b s).waiting = s.waiting := rfl
@[simp] theorem setBinding_stallLimit (ch : Chan) (b : Binding) (s : State) : (setBinding ch b s).stallLimit = s.stallLimit := rfl
@[simp] theorem setBinding_jobs (ch : Chan) (b : Binding) (s : State) : (setBinding ch b s).jobs = s.jobs := rfl
@[simp] theorem setBinding_entries (ch : Chan) (b : Binding) (s : State) : (setBinding ch b s).entries = s.entries := rfl
@[simp] theorem setBinding_freeBlocks (ch : Chan) (b : Binding) (s : State) : (setBinding ch b s).freeBlocks = s.freeBlocks := rfl
@[simp] theorem setBinding_storeLow (ch : Chan) (b : Binding) (s : State) : (setBinding ch b s).storeLow = s.storeLow := rfl
@[simp] theorem setBinding_lowMark (ch : Chan) (b : Binding) (s : State) : (setBinding ch b s).lowMark = s.lowMark := rfl
@[simp] theorem setBinding_lowSeen (ch : Chan) (b : Binding) (s : State) : (setBinding ch b s).lowSeen = s.lowSeen := rfl
@[simp] theorem setBinding_globalTarget (ch : Chan) (b : Binding) (s : State) : (setBinding ch b s).globalTarget = s.globalTarget := rfl
@[simp] theorem setBinding_store (ch : Chan) (b : Binding) (s : State) : (setBinding ch b s).store = s.store := rfl
@[simp] theorem setBinding_templates (ch : Chan) (b : Binding) (s : State) : (setBinding ch b s).templates = s.templates := rfl
@[simp] theorem setBinding_fonts (ch : Chan) (b : Binding) (s : State) : (setBinding ch b s).fonts = s.fonts := rfl
@[simp] theorem setBinding_pages (ch : Chan) (b : Binding) (s : State) : (setBinding ch b s).pages = s.pages := rfl
@[simp] theorem setBinding_compositor (ch : Chan) (b : Binding) (s : State) : (setBinding ch b s).compositor = s.compositor := rfl
@[simp] theorem setBinding_freeBuffers (ch : Chan) (b : Binding) (s : State) : (setBinding ch b s).freeBuffers = s.freeBuffers := rfl
@[simp] theorem setBinding_lead (ch : Chan) (b : Binding) (s : State) : (setBinding ch b s).lead = s.lead := rfl
@[simp] theorem setBinding_offer (ch : Chan) (b : Binding) (s : State) : (setBinding ch b s).offer = s.offer := rfl
@[simp] theorem setBinding_path (ch : Chan) (b : Binding) (s : State) : (setBinding ch b s).path = s.path := rfl
@[simp] theorem setBinding_cursor (ch : Chan) (b : Binding) (s : State) : (setBinding ch b s).cursor = s.cursor := rfl
@[simp] theorem setBinding_sending (ch : Chan) (b : Binding) (s : State) : (setBinding ch b s).sending = s.sending := rfl
@[simp] theorem setBinding_purge (ch : Chan) (b : Binding) (s : State) : (setBinding ch b s).purge = s.purge := rfl
@[simp] theorem setBinding_headCounters (ch : Chan) (b : Binding) (s : State) : (setBinding ch b s).headCounters = s.headCounters := rfl
@[simp] theorem setBinding_returnQueue (ch : Chan) (b : Binding) (s : State) : (setBinding ch b s).returnQueue = s.returnQueue := rfl
@[simp] theorem setBinding_gates (ch : Chan) (b : Binding) (s : State) : (setBinding ch b s).gates = s.gates := rfl
@[simp] theorem setBinding_returnChannel (ch : Chan) (b : Binding) (s : State) : (setBinding ch b s).returnChannel = s.returnChannel := rfl

@[simp] theorem setOverrun_pending (cls : NoticeClass) (s : State) : (setOverrun cls s).pending = s.pending := rfl
@[simp] theorem setOverrun_order (cls : NoticeClass) (s : State) : (setOverrun cls s).order = s.order := rfl
@[simp] theorem setOverrun_now (cls : NoticeClass) (s : State) : (setOverrun cls s).now = s.now := rfl
@[simp] theorem setOverrun_wake (cls : NoticeClass) (s : State) : (setOverrun cls s).wake = s.wake := rfl
@[simp] theorem setOverrun_out (cls : NoticeClass) (s : State) : (setOverrun cls s).out = s.out := rfl
@[simp] theorem setOverrun_inReset (cls : NoticeClass) (s : State) : (setOverrun cls s).inReset = s.inReset := rfl
@[simp] theorem setOverrun_chans (cls : NoticeClass) (s : State) : (setOverrun cls s).chans = s.chans := rfl
@[simp] theorem setOverrun_waiting (cls : NoticeClass) (s : State) : (setOverrun cls s).waiting = s.waiting := rfl
@[simp] theorem setOverrun_stallLimit (cls : NoticeClass) (s : State) : (setOverrun cls s).stallLimit = s.stallLimit := rfl
@[simp] theorem setOverrun_jobs (cls : NoticeClass) (s : State) : (setOverrun cls s).jobs = s.jobs := rfl
@[simp] theorem setOverrun_entries (cls : NoticeClass) (s : State) : (setOverrun cls s).entries = s.entries := rfl
@[simp] theorem setOverrun_freeBlocks (cls : NoticeClass) (s : State) : (setOverrun cls s).freeBlocks = s.freeBlocks := rfl
@[simp] theorem setOverrun_storeLow (cls : NoticeClass) (s : State) : (setOverrun cls s).storeLow = s.storeLow := rfl
@[simp] theorem setOverrun_lowMark (cls : NoticeClass) (s : State) : (setOverrun cls s).lowMark = s.lowMark := rfl
@[simp] theorem setOverrun_lowSeen (cls : NoticeClass) (s : State) : (setOverrun cls s).lowSeen = s.lowSeen := rfl
@[simp] theorem setOverrun_globalTarget (cls : NoticeClass) (s : State) : (setOverrun cls s).globalTarget = s.globalTarget := rfl
@[simp] theorem setOverrun_store (cls : NoticeClass) (s : State) : (setOverrun cls s).store = s.store := rfl
@[simp] theorem setOverrun_templates (cls : NoticeClass) (s : State) : (setOverrun cls s).templates = s.templates := rfl
@[simp] theorem setOverrun_fonts (cls : NoticeClass) (s : State) : (setOverrun cls s).fonts = s.fonts := rfl
@[simp] theorem setOverrun_pages (cls : NoticeClass) (s : State) : (setOverrun cls s).pages = s.pages := rfl
@[simp] theorem setOverrun_compositor (cls : NoticeClass) (s : State) : (setOverrun cls s).compositor = s.compositor := rfl
@[simp] theorem setOverrun_freeBuffers (cls : NoticeClass) (s : State) : (setOverrun cls s).freeBuffers = s.freeBuffers := rfl
@[simp] theorem setOverrun_lead (cls : NoticeClass) (s : State) : (setOverrun cls s).lead = s.lead := rfl
@[simp] theorem setOverrun_offer (cls : NoticeClass) (s : State) : (setOverrun cls s).offer = s.offer := rfl
@[simp] theorem setOverrun_path (cls : NoticeClass) (s : State) : (setOverrun cls s).path = s.path := rfl
@[simp] theorem setOverrun_cursor (cls : NoticeClass) (s : State) : (setOverrun cls s).cursor = s.cursor := rfl
@[simp] theorem setOverrun_sending (cls : NoticeClass) (s : State) : (setOverrun cls s).sending = s.sending := rfl
@[simp] theorem setOverrun_purge (cls : NoticeClass) (s : State) : (setOverrun cls s).purge = s.purge := rfl
@[simp] theorem setOverrun_headCounters (cls : NoticeClass) (s : State) : (setOverrun cls s).headCounters = s.headCounters := rfl
@[simp] theorem setOverrun_returnQueue (cls : NoticeClass) (s : State) : (setOverrun cls s).returnQueue = s.returnQueue := rfl
@[simp] theorem setOverrun_returnChannel (cls : NoticeClass) (s : State) : (setOverrun cls s).returnChannel = s.returnChannel := rfl

@[simp] theorem unwait_pending (ch : Chan) (s : State) : (unwait ch s).pending = s.pending := rfl
@[simp] theorem unwait_order (ch : Chan) (s : State) : (unwait ch s).order = s.order := rfl
@[simp] theorem unwait_now (ch : Chan) (s : State) : (unwait ch s).now = s.now := rfl
@[simp] theorem unwait_wake (ch : Chan) (s : State) : (unwait ch s).wake = s.wake := rfl
@[simp] theorem unwait_out (ch : Chan) (s : State) : (unwait ch s).out = s.out := rfl
@[simp] theorem unwait_inReset (ch : Chan) (s : State) : (unwait ch s).inReset = s.inReset := rfl
@[simp] theorem unwait_chans (ch : Chan) (s : State) : (unwait ch s).chans = s.chans := rfl
@[simp] theorem unwait_stallLimit (ch : Chan) (s : State) : (unwait ch s).stallLimit = s.stallLimit := rfl
@[simp] theorem unwait_jobs (ch : Chan) (s : State) : (unwait ch s).jobs = s.jobs := rfl
@[simp] theorem unwait_entries (ch : Chan) (s : State) : (unwait ch s).entries = s.entries := rfl
@[simp] theorem unwait_freeBlocks (ch : Chan) (s : State) : (unwait ch s).freeBlocks = s.freeBlocks := rfl
@[simp] theorem unwait_storeLow (ch : Chan) (s : State) : (unwait ch s).storeLow = s.storeLow := rfl
@[simp] theorem unwait_lowMark (ch : Chan) (s : State) : (unwait ch s).lowMark = s.lowMark := rfl
@[simp] theorem unwait_lowSeen (ch : Chan) (s : State) : (unwait ch s).lowSeen = s.lowSeen := rfl
@[simp] theorem unwait_globalTarget (ch : Chan) (s : State) : (unwait ch s).globalTarget = s.globalTarget := rfl
@[simp] theorem unwait_store (ch : Chan) (s : State) : (unwait ch s).store = s.store := rfl
@[simp] theorem unwait_templates (ch : Chan) (s : State) : (unwait ch s).templates = s.templates := rfl
@[simp] theorem unwait_fonts (ch : Chan) (s : State) : (unwait ch s).fonts = s.fonts := rfl
@[simp] theorem unwait_pages (ch : Chan) (s : State) : (unwait ch s).pages = s.pages := rfl
@[simp] theorem unwait_compositor (ch : Chan) (s : State) : (unwait ch s).compositor = s.compositor := rfl
@[simp] theorem unwait_freeBuffers (ch : Chan) (s : State) : (unwait ch s).freeBuffers = s.freeBuffers := rfl
@[simp] theorem unwait_lead (ch : Chan) (s : State) : (unwait ch s).lead = s.lead := rfl
@[simp] theorem unwait_offer (ch : Chan) (s : State) : (unwait ch s).offer = s.offer := rfl
@[simp] theorem unwait_path (ch : Chan) (s : State) : (unwait ch s).path = s.path := rfl
@[simp] theorem unwait_cursor (ch : Chan) (s : State) : (unwait ch s).cursor = s.cursor := rfl
@[simp] theorem unwait_sending (ch : Chan) (s : State) : (unwait ch s).sending = s.sending := rfl
@[simp] theorem unwait_purge (ch : Chan) (s : State) : (unwait ch s).purge = s.purge := rfl
@[simp] theorem unwait_headCounters (ch : Chan) (s : State) : (unwait ch s).headCounters = s.headCounters := rfl
@[simp] theorem unwait_returnQueue (ch : Chan) (s : State) : (unwait ch s).returnQueue = s.returnQueue := rfl
@[simp] theorem unwait_gates (ch : Chan) (s : State) : (unwait ch s).gates = s.gates := rfl
@[simp] theorem unwait_returnChannel (ch : Chan) (s : State) : (unwait ch s).returnChannel = s.returnChannel := rfl

@[simp] theorem setEntry_pending (e : Entry) (s : State) : (setEntry e s).pending = s.pending := rfl
@[simp] theorem setEntry_order (e : Entry) (s : State) : (setEntry e s).order = s.order := rfl
@[simp] theorem setEntry_now (e : Entry) (s : State) : (setEntry e s).now = s.now := rfl
@[simp] theorem setEntry_wake (e : Entry) (s : State) : (setEntry e s).wake = s.wake := rfl
@[simp] theorem setEntry_out (e : Entry) (s : State) : (setEntry e s).out = s.out := rfl
@[simp] theorem setEntry_inReset (e : Entry) (s : State) : (setEntry e s).inReset = s.inReset := rfl
@[simp] theorem setEntry_chans (e : Entry) (s : State) : (setEntry e s).chans = s.chans := rfl
@[simp] theorem setEntry_waiting (e : Entry) (s : State) : (setEntry e s).waiting = s.waiting := rfl
@[simp] theorem setEntry_stallLimit (e : Entry) (s : State) : (setEntry e s).stallLimit = s.stallLimit := rfl
@[simp] theorem setEntry_jobs (e : Entry) (s : State) : (setEntry e s).jobs = s.jobs := rfl
@[simp] theorem setEntry_freeBlocks (e : Entry) (s : State) : (setEntry e s).freeBlocks = s.freeBlocks := rfl
@[simp] theorem setEntry_storeLow (e : Entry) (s : State) : (setEntry e s).storeLow = s.storeLow := rfl
@[simp] theorem setEntry_lowMark (e : Entry) (s : State) : (setEntry e s).lowMark = s.lowMark := rfl
@[simp] theorem setEntry_lowSeen (e : Entry) (s : State) : (setEntry e s).lowSeen = s.lowSeen := rfl
@[simp] theorem setEntry_globalTarget (e : Entry) (s : State) : (setEntry e s).globalTarget = s.globalTarget := rfl
@[simp] theorem setEntry_store (e : Entry) (s : State) : (setEntry e s).store = s.store := rfl
@[simp] theorem setEntry_templates (e : Entry) (s : State) : (setEntry e s).templates = s.templates := rfl
@[simp] theorem setEntry_fonts (e : Entry) (s : State) : (setEntry e s).fonts = s.fonts := rfl
@[simp] theorem setEntry_pages (e : Entry) (s : State) : (setEntry e s).pages = s.pages := rfl
@[simp] theorem setEntry_compositor (e : Entry) (s : State) : (setEntry e s).compositor = s.compositor := rfl
@[simp] theorem setEntry_freeBuffers (e : Entry) (s : State) : (setEntry e s).freeBuffers = s.freeBuffers := rfl
@[simp] theorem setEntry_lead (e : Entry) (s : State) : (setEntry e s).lead = s.lead := rfl
@[simp] theorem setEntry_offer (e : Entry) (s : State) : (setEntry e s).offer = s.offer := rfl
@[simp] theorem setEntry_path (e : Entry) (s : State) : (setEntry e s).path = s.path := rfl
@[simp] theorem setEntry_cursor (e : Entry) (s : State) : (setEntry e s).cursor = s.cursor := rfl
@[simp] theorem setEntry_sending (e : Entry) (s : State) : (setEntry e s).sending = s.sending := rfl
@[simp] theorem setEntry_purge (e : Entry) (s : State) : (setEntry e s).purge = s.purge := rfl
@[simp] theorem setEntry_headCounters (e : Entry) (s : State) : (setEntry e s).headCounters = s.headCounters := rfl
@[simp] theorem setEntry_returnQueue (e : Entry) (s : State) : (setEntry e s).returnQueue = s.returnQueue := rfl
@[simp] theorem setEntry_gates (e : Entry) (s : State) : (setEntry e s).gates = s.gates := rfl
@[simp] theorem setEntry_returnChannel (e : Entry) (s : State) : (setEntry e s).returnChannel = s.returnChannel := rfl

@[simp] theorem setJob_pending (j : Job) (s : State) : (setJob j s).pending = s.pending := rfl
@[simp] theorem setJob_order (j : Job) (s : State) : (setJob j s).order = s.order := rfl
@[simp] theorem setJob_now (j : Job) (s : State) : (setJob j s).now = s.now := rfl
@[simp] theorem setJob_wake (j : Job) (s : State) : (setJob j s).wake = s.wake := rfl
@[simp] theorem setJob_out (j : Job) (s : State) : (setJob j s).out = s.out := rfl
@[simp] theorem setJob_inReset (j : Job) (s : State) : (setJob j s).inReset = s.inReset := rfl
@[simp] theorem setJob_chans (j : Job) (s : State) : (setJob j s).chans = s.chans := rfl
@[simp] theorem setJob_waiting (j : Job) (s : State) : (setJob j s).waiting = s.waiting := rfl
@[simp] theorem setJob_stallLimit (j : Job) (s : State) : (setJob j s).stallLimit = s.stallLimit := rfl
@[simp] theorem setJob_entries (j : Job) (s : State) : (setJob j s).entries = s.entries := rfl
@[simp] theorem setJob_freeBlocks (j : Job) (s : State) : (setJob j s).freeBlocks = s.freeBlocks := rfl
@[simp] theorem setJob_storeLow (j : Job) (s : State) : (setJob j s).storeLow = s.storeLow := rfl
@[simp] theorem setJob_lowMark (j : Job) (s : State) : (setJob j s).lowMark = s.lowMark := rfl
@[simp] theorem setJob_lowSeen (j : Job) (s : State) : (setJob j s).lowSeen = s.lowSeen := rfl
@[simp] theorem setJob_globalTarget (j : Job) (s : State) : (setJob j s).globalTarget = s.globalTarget := rfl
@[simp] theorem setJob_store (j : Job) (s : State) : (setJob j s).store = s.store := rfl
@[simp] theorem setJob_templates (j : Job) (s : State) : (setJob j s).templates = s.templates := rfl
@[simp] theorem setJob_fonts (j : Job) (s : State) : (setJob j s).fonts = s.fonts := rfl
@[simp] theorem setJob_pages (j : Job) (s : State) : (setJob j s).pages = s.pages := rfl
@[simp] theorem setJob_compositor (j : Job) (s : State) : (setJob j s).compositor = s.compositor := rfl
@[simp] theorem setJob_freeBuffers (j : Job) (s : State) : (setJob j s).freeBuffers = s.freeBuffers := rfl
@[simp] theorem setJob_lead (j : Job) (s : State) : (setJob j s).lead = s.lead := rfl
@[simp] theorem setJob_offer (j : Job) (s : State) : (setJob j s).offer = s.offer := rfl
@[simp] theorem setJob_path (j : Job) (s : State) : (setJob j s).path = s.path := rfl
@[simp] theorem setJob_cursor (j : Job) (s : State) : (setJob j s).cursor = s.cursor := rfl
@[simp] theorem setJob_sending (j : Job) (s : State) : (setJob j s).sending = s.sending := rfl
@[simp] theorem setJob_purge (j : Job) (s : State) : (setJob j s).purge = s.purge := rfl
@[simp] theorem setJob_headCounters (j : Job) (s : State) : (setJob j s).headCounters = s.headCounters := rfl
@[simp] theorem setJob_returnQueue (j : Job) (s : State) : (setJob j s).returnQueue = s.returnQueue := rfl
@[simp] theorem setJob_gates (j : Job) (s : State) : (setJob j s).gates = s.gates := rfl
@[simp] theorem setJob_returnChannel (j : Job) (s : State) : (setJob j s).returnChannel = s.returnChannel := rfl

@[simp] theorem setPage_pending (p : Page) (s : State) : (setPage p s).pending = s.pending := rfl
@[simp] theorem setPage_order (p : Page) (s : State) : (setPage p s).order = s.order := rfl
@[simp] theorem setPage_now (p : Page) (s : State) : (setPage p s).now = s.now := rfl
@[simp] theorem setPage_wake (p : Page) (s : State) : (setPage p s).wake = s.wake := rfl
@[simp] theorem setPage_out (p : Page) (s : State) : (setPage p s).out = s.out := rfl
@[simp] theorem setPage_inReset (p : Page) (s : State) : (setPage p s).inReset = s.inReset := rfl
@[simp] theorem setPage_chans (p : Page) (s : State) : (setPage p s).chans = s.chans := rfl
@[simp] theorem setPage_waiting (p : Page) (s : State) : (setPage p s).waiting = s.waiting := rfl
@[simp] theorem setPage_stallLimit (p : Page) (s : State) : (setPage p s).stallLimit = s.stallLimit := rfl
@[simp] theorem setPage_jobs (p : Page) (s : State) : (setPage p s).jobs = s.jobs := rfl
@[simp] theorem setPage_entries (p : Page) (s : State) : (setPage p s).entries = s.entries := rfl
@[simp] theorem setPage_freeBlocks (p : Page) (s : State) : (setPage p s).freeBlocks = s.freeBlocks := rfl
@[simp] theorem setPage_storeLow (p : Page) (s : State) : (setPage p s).storeLow = s.storeLow := rfl
@[simp] theorem setPage_lowMark (p : Page) (s : State) : (setPage p s).lowMark = s.lowMark := rfl
@[simp] theorem setPage_lowSeen (p : Page) (s : State) : (setPage p s).lowSeen = s.lowSeen := rfl
@[simp] theorem setPage_globalTarget (p : Page) (s : State) : (setPage p s).globalTarget = s.globalTarget := rfl
@[simp] theorem setPage_store (p : Page) (s : State) : (setPage p s).store = s.store := rfl
@[simp] theorem setPage_templates (p : Page) (s : State) : (setPage p s).templates = s.templates := rfl
@[simp] theorem setPage_fonts (p : Page) (s : State) : (setPage p s).fonts = s.fonts := rfl
@[simp] theorem setPage_compositor (p : Page) (s : State) : (setPage p s).compositor = s.compositor := rfl
@[simp] theorem setPage_freeBuffers (p : Page) (s : State) : (setPage p s).freeBuffers = s.freeBuffers := rfl
@[simp] theorem setPage_lead (p : Page) (s : State) : (setPage p s).lead = s.lead := rfl
@[simp] theorem setPage_offer (p : Page) (s : State) : (setPage p s).offer = s.offer := rfl
@[simp] theorem setPage_path (p : Page) (s : State) : (setPage p s).path = s.path := rfl
@[simp] theorem setPage_cursor (p : Page) (s : State) : (setPage p s).cursor = s.cursor := rfl
@[simp] theorem setPage_sending (p : Page) (s : State) : (setPage p s).sending = s.sending := rfl
@[simp] theorem setPage_purge (p : Page) (s : State) : (setPage p s).purge = s.purge := rfl
@[simp] theorem setPage_headCounters (p : Page) (s : State) : (setPage p s).headCounters = s.headCounters := rfl
@[simp] theorem setPage_returnQueue (p : Page) (s : State) : (setPage p s).returnQueue = s.returnQueue := rfl
@[simp] theorem setPage_gates (p : Page) (s : State) : (setPage p s).gates = s.gates := rfl
@[simp] theorem setPage_returnChannel (p : Page) (s : State) : (setPage p s).returnChannel = s.returnChannel := rfl

@[simp] theorem setTemplate_pending (i : Fin 12) (t : Option TemplateBuffer) (s : State) : (setTemplate i t s).pending = s.pending := rfl
@[simp] theorem setTemplate_order (i : Fin 12) (t : Option TemplateBuffer) (s : State) : (setTemplate i t s).order = s.order := rfl
@[simp] theorem setTemplate_now (i : Fin 12) (t : Option TemplateBuffer) (s : State) : (setTemplate i t s).now = s.now := rfl
@[simp] theorem setTemplate_wake (i : Fin 12) (t : Option TemplateBuffer) (s : State) : (setTemplate i t s).wake = s.wake := rfl
@[simp] theorem setTemplate_out (i : Fin 12) (t : Option TemplateBuffer) (s : State) : (setTemplate i t s).out = s.out := rfl
@[simp] theorem setTemplate_inReset (i : Fin 12) (t : Option TemplateBuffer) (s : State) : (setTemplate i t s).inReset = s.inReset := rfl
@[simp] theorem setTemplate_chans (i : Fin 12) (t : Option TemplateBuffer) (s : State) : (setTemplate i t s).chans = s.chans := rfl
@[simp] theorem setTemplate_waiting (i : Fin 12) (t : Option TemplateBuffer) (s : State) : (setTemplate i t s).waiting = s.waiting := rfl
@[simp] theorem setTemplate_stallLimit (i : Fin 12) (t : Option TemplateBuffer) (s : State) : (setTemplate i t s).stallLimit = s.stallLimit := rfl
@[simp] theorem setTemplate_jobs (i : Fin 12) (t : Option TemplateBuffer) (s : State) : (setTemplate i t s).jobs = s.jobs := rfl
@[simp] theorem setTemplate_entries (i : Fin 12) (t : Option TemplateBuffer) (s : State) : (setTemplate i t s).entries = s.entries := rfl
@[simp] theorem setTemplate_freeBlocks (i : Fin 12) (t : Option TemplateBuffer) (s : State) : (setTemplate i t s).freeBlocks = s.freeBlocks := rfl
@[simp] theorem setTemplate_storeLow (i : Fin 12) (t : Option TemplateBuffer) (s : State) : (setTemplate i t s).storeLow = s.storeLow := rfl
@[simp] theorem setTemplate_lowMark (i : Fin 12) (t : Option TemplateBuffer) (s : State) : (setTemplate i t s).lowMark = s.lowMark := rfl
@[simp] theorem setTemplate_lowSeen (i : Fin 12) (t : Option TemplateBuffer) (s : State) : (setTemplate i t s).lowSeen = s.lowSeen := rfl
@[simp] theorem setTemplate_globalTarget (i : Fin 12) (t : Option TemplateBuffer) (s : State) : (setTemplate i t s).globalTarget = s.globalTarget := rfl
@[simp] theorem setTemplate_store (i : Fin 12) (t : Option TemplateBuffer) (s : State) : (setTemplate i t s).store = s.store := rfl
@[simp] theorem setTemplate_fonts (i : Fin 12) (t : Option TemplateBuffer) (s : State) : (setTemplate i t s).fonts = s.fonts := rfl
@[simp] theorem setTemplate_pages (i : Fin 12) (t : Option TemplateBuffer) (s : State) : (setTemplate i t s).pages = s.pages := rfl
@[simp] theorem setTemplate_compositor (i : Fin 12) (t : Option TemplateBuffer) (s : State) : (setTemplate i t s).compositor = s.compositor := rfl
@[simp] theorem setTemplate_freeBuffers (i : Fin 12) (t : Option TemplateBuffer) (s : State) : (setTemplate i t s).freeBuffers = s.freeBuffers := rfl
@[simp] theorem setTemplate_lead (i : Fin 12) (t : Option TemplateBuffer) (s : State) : (setTemplate i t s).lead = s.lead := rfl
@[simp] theorem setTemplate_offer (i : Fin 12) (t : Option TemplateBuffer) (s : State) : (setTemplate i t s).offer = s.offer := rfl
@[simp] theorem setTemplate_path (i : Fin 12) (t : Option TemplateBuffer) (s : State) : (setTemplate i t s).path = s.path := rfl
@[simp] theorem setTemplate_cursor (i : Fin 12) (t : Option TemplateBuffer) (s : State) : (setTemplate i t s).cursor = s.cursor := rfl
@[simp] theorem setTemplate_sending (i : Fin 12) (t : Option TemplateBuffer) (s : State) : (setTemplate i t s).sending = s.sending := rfl
@[simp] theorem setTemplate_purge (i : Fin 12) (t : Option TemplateBuffer) (s : State) : (setTemplate i t s).purge = s.purge := rfl
@[simp] theorem setTemplate_headCounters (i : Fin 12) (t : Option TemplateBuffer) (s : State) : (setTemplate i t s).headCounters = s.headCounters := rfl
@[simp] theorem setTemplate_returnQueue (i : Fin 12) (t : Option TemplateBuffer) (s : State) : (setTemplate i t s).returnQueue = s.returnQueue := rfl
@[simp] theorem setTemplate_gates (i : Fin 12) (t : Option TemplateBuffer) (s : State) : (setTemplate i t s).gates = s.gates := rfl
@[simp] theorem setTemplate_returnChannel (i : Fin 12) (t : Option TemplateBuffer) (s : State) : (setTemplate i t s).returnChannel = s.returnChannel := rfl

@[simp] theorem returnBlocks_pending (runs : List Run) (s : State) : (returnBlocks runs s).pending = s.pending := rfl
@[simp] theorem returnBlocks_order (runs : List Run) (s : State) : (returnBlocks runs s).order = s.order := rfl
@[simp] theorem returnBlocks_now (runs : List Run) (s : State) : (returnBlocks runs s).now = s.now := rfl
@[simp] theorem returnBlocks_out (runs : List Run) (s : State) : (returnBlocks runs s).out = s.out := rfl
@[simp] theorem returnBlocks_inReset (runs : List Run) (s : State) : (returnBlocks runs s).inReset = s.inReset := rfl
@[simp] theorem returnBlocks_chans (runs : List Run) (s : State) : (returnBlocks runs s).chans = s.chans := rfl
@[simp] theorem returnBlocks_waiting (runs : List Run) (s : State) : (returnBlocks runs s).waiting = s.waiting := rfl
@[simp] theorem returnBlocks_stallLimit (runs : List Run) (s : State) : (returnBlocks runs s).stallLimit = s.stallLimit := rfl
@[simp] theorem returnBlocks_jobs (runs : List Run) (s : State) : (returnBlocks runs s).jobs = s.jobs := rfl
@[simp] theorem returnBlocks_entries (runs : List Run) (s : State) : (returnBlocks runs s).entries = s.entries := rfl
@[simp] theorem returnBlocks_storeLow (runs : List Run) (s : State) : (returnBlocks runs s).storeLow = s.storeLow := rfl
@[simp] theorem returnBlocks_lowMark (runs : List Run) (s : State) : (returnBlocks runs s).lowMark = s.lowMark := rfl
@[simp] theorem returnBlocks_lowSeen (runs : List Run) (s : State) : (returnBlocks runs s).lowSeen = s.lowSeen := rfl
@[simp] theorem returnBlocks_globalTarget (runs : List Run) (s : State) : (returnBlocks runs s).globalTarget = s.globalTarget := rfl
@[simp] theorem returnBlocks_store (runs : List Run) (s : State) : (returnBlocks runs s).store = s.store := rfl
@[simp] theorem returnBlocks_templates (runs : List Run) (s : State) : (returnBlocks runs s).templates = s.templates := rfl
@[simp] theorem returnBlocks_fonts (runs : List Run) (s : State) : (returnBlocks runs s).fonts = s.fonts := rfl
@[simp] theorem returnBlocks_pages (runs : List Run) (s : State) : (returnBlocks runs s).pages = s.pages := rfl
@[simp] theorem returnBlocks_compositor (runs : List Run) (s : State) : (returnBlocks runs s).compositor = s.compositor := rfl
@[simp] theorem returnBlocks_freeBuffers (runs : List Run) (s : State) : (returnBlocks runs s).freeBuffers = s.freeBuffers := rfl
@[simp] theorem returnBlocks_lead (runs : List Run) (s : State) : (returnBlocks runs s).lead = s.lead := rfl
@[simp] theorem returnBlocks_offer (runs : List Run) (s : State) : (returnBlocks runs s).offer = s.offer := rfl
@[simp] theorem returnBlocks_path (runs : List Run) (s : State) : (returnBlocks runs s).path = s.path := rfl
@[simp] theorem returnBlocks_cursor (runs : List Run) (s : State) : (returnBlocks runs s).cursor = s.cursor := rfl
@[simp] theorem returnBlocks_sending (runs : List Run) (s : State) : (returnBlocks runs s).sending = s.sending := rfl
@[simp] theorem returnBlocks_purge (runs : List Run) (s : State) : (returnBlocks runs s).purge = s.purge := rfl
@[simp] theorem returnBlocks_headCounters (runs : List Run) (s : State) : (returnBlocks runs s).headCounters = s.headCounters := rfl
@[simp] theorem returnBlocks_returnQueue (runs : List Run) (s : State) : (returnBlocks runs s).returnQueue = s.returnQueue := rfl
@[simp] theorem returnBlocks_gates (runs : List Run) (s : State) : (returnBlocks runs s).gates = s.gates := rfl
@[simp] theorem returnBlocks_returnChannel (runs : List Run) (s : State) : (returnBlocks runs s).returnChannel = s.returnChannel := rfl

@[simp] theorem freeBandBuffers_pending (buffers : List Nat) (s : State) : (freeBandBuffers buffers s).pending = s.pending := rfl
@[simp] theorem freeBandBuffers_order (buffers : List Nat) (s : State) : (freeBandBuffers buffers s).order = s.order := rfl
@[simp] theorem freeBandBuffers_now (buffers : List Nat) (s : State) : (freeBandBuffers buffers s).now = s.now := rfl
@[simp] theorem freeBandBuffers_wake (buffers : List Nat) (s : State) : (freeBandBuffers buffers s).wake = s.wake := rfl
@[simp] theorem freeBandBuffers_out (buffers : List Nat) (s : State) : (freeBandBuffers buffers s).out = s.out := rfl
@[simp] theorem freeBandBuffers_inReset (buffers : List Nat) (s : State) : (freeBandBuffers buffers s).inReset = s.inReset := rfl
@[simp] theorem freeBandBuffers_chans (buffers : List Nat) (s : State) : (freeBandBuffers buffers s).chans = s.chans := rfl
@[simp] theorem freeBandBuffers_waiting (buffers : List Nat) (s : State) : (freeBandBuffers buffers s).waiting = s.waiting := rfl
@[simp] theorem freeBandBuffers_stallLimit (buffers : List Nat) (s : State) : (freeBandBuffers buffers s).stallLimit = s.stallLimit := rfl
@[simp] theorem freeBandBuffers_jobs (buffers : List Nat) (s : State) : (freeBandBuffers buffers s).jobs = s.jobs := rfl
@[simp] theorem freeBandBuffers_entries (buffers : List Nat) (s : State) : (freeBandBuffers buffers s).entries = s.entries := rfl
@[simp] theorem freeBandBuffers_freeBlocks (buffers : List Nat) (s : State) : (freeBandBuffers buffers s).freeBlocks = s.freeBlocks := rfl
@[simp] theorem freeBandBuffers_storeLow (buffers : List Nat) (s : State) : (freeBandBuffers buffers s).storeLow = s.storeLow := rfl
@[simp] theorem freeBandBuffers_lowMark (buffers : List Nat) (s : State) : (freeBandBuffers buffers s).lowMark = s.lowMark := rfl
@[simp] theorem freeBandBuffers_lowSeen (buffers : List Nat) (s : State) : (freeBandBuffers buffers s).lowSeen = s.lowSeen := rfl
@[simp] theorem freeBandBuffers_globalTarget (buffers : List Nat) (s : State) : (freeBandBuffers buffers s).globalTarget = s.globalTarget := rfl
@[simp] theorem freeBandBuffers_store (buffers : List Nat) (s : State) : (freeBandBuffers buffers s).store = s.store := rfl
@[simp] theorem freeBandBuffers_templates (buffers : List Nat) (s : State) : (freeBandBuffers buffers s).templates = s.templates := rfl
@[simp] theorem freeBandBuffers_fonts (buffers : List Nat) (s : State) : (freeBandBuffers buffers s).fonts = s.fonts := rfl
@[simp] theorem freeBandBuffers_pages (buffers : List Nat) (s : State) : (freeBandBuffers buffers s).pages = s.pages := rfl
@[simp] theorem freeBandBuffers_compositor (buffers : List Nat) (s : State) : (freeBandBuffers buffers s).compositor = s.compositor := rfl
@[simp] theorem freeBandBuffers_lead (buffers : List Nat) (s : State) : (freeBandBuffers buffers s).lead = s.lead := rfl
@[simp] theorem freeBandBuffers_offer (buffers : List Nat) (s : State) : (freeBandBuffers buffers s).offer = s.offer := rfl
@[simp] theorem freeBandBuffers_path (buffers : List Nat) (s : State) : (freeBandBuffers buffers s).path = s.path := rfl
@[simp] theorem freeBandBuffers_cursor (buffers : List Nat) (s : State) : (freeBandBuffers buffers s).cursor = s.cursor := rfl
@[simp] theorem freeBandBuffers_sending (buffers : List Nat) (s : State) : (freeBandBuffers buffers s).sending = s.sending := rfl
@[simp] theorem freeBandBuffers_purge (buffers : List Nat) (s : State) : (freeBandBuffers buffers s).purge = s.purge := rfl
@[simp] theorem freeBandBuffers_headCounters (buffers : List Nat) (s : State) : (freeBandBuffers buffers s).headCounters = s.headCounters := rfl
@[simp] theorem freeBandBuffers_returnQueue (buffers : List Nat) (s : State) : (freeBandBuffers buffers s).returnQueue = s.returnQueue := rfl
@[simp] theorem freeBandBuffers_gates (buffers : List Nat) (s : State) : (freeBandBuffers buffers s).gates = s.gates := rfl
@[simp] theorem freeBandBuffers_returnChannel (buffers : List Nat) (s : State) : (freeBandBuffers buffers s).returnChannel = s.returnChannel := rfl

@[simp] theorem modCounters_pending (f : HeadCounters → HeadCounters) (s : State) : (modCounters f s).pending = s.pending := rfl
@[simp] theorem modCounters_order (f : HeadCounters → HeadCounters) (s : State) : (modCounters f s).order = s.order := rfl
@[simp] theorem modCounters_now (f : HeadCounters → HeadCounters) (s : State) : (modCounters f s).now = s.now := rfl
@[simp] theorem modCounters_wake (f : HeadCounters → HeadCounters) (s : State) : (modCounters f s).wake = s.wake := rfl
@[simp] theorem modCounters_out (f : HeadCounters → HeadCounters) (s : State) : (modCounters f s).out = s.out := rfl
@[simp] theorem modCounters_inReset (f : HeadCounters → HeadCounters) (s : State) : (modCounters f s).inReset = s.inReset := rfl
@[simp] theorem modCounters_chans (f : HeadCounters → HeadCounters) (s : State) : (modCounters f s).chans = s.chans := rfl
@[simp] theorem modCounters_waiting (f : HeadCounters → HeadCounters) (s : State) : (modCounters f s).waiting = s.waiting := rfl
@[simp] theorem modCounters_stallLimit (f : HeadCounters → HeadCounters) (s : State) : (modCounters f s).stallLimit = s.stallLimit := rfl
@[simp] theorem modCounters_jobs (f : HeadCounters → HeadCounters) (s : State) : (modCounters f s).jobs = s.jobs := rfl
@[simp] theorem modCounters_entries (f : HeadCounters → HeadCounters) (s : State) : (modCounters f s).entries = s.entries := rfl
@[simp] theorem modCounters_freeBlocks (f : HeadCounters → HeadCounters) (s : State) : (modCounters f s).freeBlocks = s.freeBlocks := rfl
@[simp] theorem modCounters_storeLow (f : HeadCounters → HeadCounters) (s : State) : (modCounters f s).storeLow = s.storeLow := rfl
@[simp] theorem modCounters_lowMark (f : HeadCounters → HeadCounters) (s : State) : (modCounters f s).lowMark = s.lowMark := rfl
@[simp] theorem modCounters_lowSeen (f : HeadCounters → HeadCounters) (s : State) : (modCounters f s).lowSeen = s.lowSeen := rfl
@[simp] theorem modCounters_globalTarget (f : HeadCounters → HeadCounters) (s : State) : (modCounters f s).globalTarget = s.globalTarget := rfl
@[simp] theorem modCounters_store (f : HeadCounters → HeadCounters) (s : State) : (modCounters f s).store = s.store := rfl
@[simp] theorem modCounters_templates (f : HeadCounters → HeadCounters) (s : State) : (modCounters f s).templates = s.templates := rfl
@[simp] theorem modCounters_fonts (f : HeadCounters → HeadCounters) (s : State) : (modCounters f s).fonts = s.fonts := rfl
@[simp] theorem modCounters_pages (f : HeadCounters → HeadCounters) (s : State) : (modCounters f s).pages = s.pages := rfl
@[simp] theorem modCounters_compositor (f : HeadCounters → HeadCounters) (s : State) : (modCounters f s).compositor = s.compositor := rfl
@[simp] theorem modCounters_freeBuffers (f : HeadCounters → HeadCounters) (s : State) : (modCounters f s).freeBuffers = s.freeBuffers := rfl
@[simp] theorem modCounters_lead (f : HeadCounters → HeadCounters) (s : State) : (modCounters f s).lead = s.lead := rfl
@[simp] theorem modCounters_offer (f : HeadCounters → HeadCounters) (s : State) : (modCounters f s).offer = s.offer := rfl
@[simp] theorem modCounters_path (f : HeadCounters → HeadCounters) (s : State) : (modCounters f s).path = s.path := rfl
@[simp] theorem modCounters_cursor (f : HeadCounters → HeadCounters) (s : State) : (modCounters f s).cursor = s.cursor := rfl
@[simp] theorem modCounters_sending (f : HeadCounters → HeadCounters) (s : State) : (modCounters f s).sending = s.sending := rfl
@[simp] theorem modCounters_purge (f : HeadCounters → HeadCounters) (s : State) : (modCounters f s).purge = s.purge := rfl
@[simp] theorem modCounters_returnQueue (f : HeadCounters → HeadCounters) (s : State) : (modCounters f s).returnQueue = s.returnQueue := rfl
@[simp] theorem modCounters_gates (f : HeadCounters → HeadCounters) (s : State) : (modCounters f s).gates = s.gates := rfl
@[simp] theorem modCounters_returnChannel (f : HeadCounters → HeadCounters) (s : State) : (modCounters f s).returnChannel = s.returnChannel := rfl

@[simp] theorem advanceTo_pending (t : Nat) (s : State) : (advanceTo t s).pending = s.pending := rfl
@[simp] theorem advanceTo_order (t : Nat) (s : State) : (advanceTo t s).order = s.order := rfl
@[simp] theorem advanceTo_wake (t : Nat) (s : State) : (advanceTo t s).wake = s.wake := rfl
@[simp] theorem advanceTo_out (t : Nat) (s : State) : (advanceTo t s).out = s.out := rfl
@[simp] theorem advanceTo_inReset (t : Nat) (s : State) : (advanceTo t s).inReset = s.inReset := rfl
@[simp] theorem advanceTo_chans (t : Nat) (s : State) : (advanceTo t s).chans = s.chans := rfl
@[simp] theorem advanceTo_waiting (t : Nat) (s : State) : (advanceTo t s).waiting = s.waiting := rfl
@[simp] theorem advanceTo_stallLimit (t : Nat) (s : State) : (advanceTo t s).stallLimit = s.stallLimit := rfl
@[simp] theorem advanceTo_jobs (t : Nat) (s : State) : (advanceTo t s).jobs = s.jobs := rfl
@[simp] theorem advanceTo_entries (t : Nat) (s : State) : (advanceTo t s).entries = s.entries := rfl
@[simp] theorem advanceTo_freeBlocks (t : Nat) (s : State) : (advanceTo t s).freeBlocks = s.freeBlocks := rfl
@[simp] theorem advanceTo_storeLow (t : Nat) (s : State) : (advanceTo t s).storeLow = s.storeLow := rfl
@[simp] theorem advanceTo_lowMark (t : Nat) (s : State) : (advanceTo t s).lowMark = s.lowMark := rfl
@[simp] theorem advanceTo_lowSeen (t : Nat) (s : State) : (advanceTo t s).lowSeen = s.lowSeen := rfl
@[simp] theorem advanceTo_globalTarget (t : Nat) (s : State) : (advanceTo t s).globalTarget = s.globalTarget := rfl
@[simp] theorem advanceTo_store (t : Nat) (s : State) : (advanceTo t s).store = s.store := rfl
@[simp] theorem advanceTo_templates (t : Nat) (s : State) : (advanceTo t s).templates = s.templates := rfl
@[simp] theorem advanceTo_fonts (t : Nat) (s : State) : (advanceTo t s).fonts = s.fonts := rfl
@[simp] theorem advanceTo_pages (t : Nat) (s : State) : (advanceTo t s).pages = s.pages := rfl
@[simp] theorem advanceTo_compositor (t : Nat) (s : State) : (advanceTo t s).compositor = s.compositor := rfl
@[simp] theorem advanceTo_freeBuffers (t : Nat) (s : State) : (advanceTo t s).freeBuffers = s.freeBuffers := rfl
@[simp] theorem advanceTo_lead (t : Nat) (s : State) : (advanceTo t s).lead = s.lead := rfl
@[simp] theorem advanceTo_offer (t : Nat) (s : State) : (advanceTo t s).offer = s.offer := rfl
@[simp] theorem advanceTo_path (t : Nat) (s : State) : (advanceTo t s).path = s.path := rfl
@[simp] theorem advanceTo_cursor (t : Nat) (s : State) : (advanceTo t s).cursor = s.cursor := rfl
@[simp] theorem advanceTo_sending (t : Nat) (s : State) : (advanceTo t s).sending = s.sending := rfl
@[simp] theorem advanceTo_purge (t : Nat) (s : State) : (advanceTo t s).purge = s.purge := rfl
@[simp] theorem advanceTo_headCounters (t : Nat) (s : State) : (advanceTo t s).headCounters = s.headCounters := rfl
@[simp] theorem advanceTo_returnQueue (t : Nat) (s : State) : (advanceTo t s).returnQueue = s.returnQueue := rfl
@[simp] theorem advanceTo_gates (t : Nat) (s : State) : (advanceTo t s).gates = s.gates := rfl
@[simp] theorem advanceTo_returnChannel (t : Nat) (s : State) : (advanceTo t s).returnChannel = s.returnChannel := rfl

@[simp] theorem modChan_chans (ch : Chan) (f : Channel → Channel) (s : State) :
    (modChan ch f s).chans = s.chans.set ch (f s.chans[ch]) := rfl

@[simp] theorem modChan_self (ch : Chan) (f : Channel → Channel) (s : State) : (modChan ch f s).chans[ch] = f s.chans[ch] := by
  simp [modChan]

theorem modChan_other {ch c : Chan} (f : Channel → Channel) (s : State) (h : c ≠ ch) :
    (modChan ch f s).chans[c] = s.chans[c] := by
  have : ch.val ≠ c.val := fun e => h (Fin.ext e.symm)
  simp [modChan, this]

end Sys2Proof.Machine
end

