-- ==== Sys2Proof/Laws/Ops.lean ====
section
/-! SUPPORT. What the shared operations can do, said once for each, and the fields that they leave as they were. -/

namespace Sys2Proof.Machine

/-! ## The fields that the operations leave -/

@[simp] theorem releaseRule_pending (s : State) : (releaseRule s).pending = s.pending := by
  unfold releaseRule; split; · rfl
  split <;> rfl
@[simp] theorem releaseRule_order (s : State) : (releaseRule s).order = s.order := by
  unfold releaseRule; split; · rfl
  split <;> rfl
@[simp] theorem releaseRule_now (s : State) : (releaseRule s).now = s.now := by
  unfold releaseRule; split; · rfl
  split <;> rfl
@[simp] theorem releaseRule_inReset (s : State) : (releaseRule s).inReset = s.inReset := by
  unfold releaseRule; split; · rfl
  split <;> rfl
@[simp] theorem releaseRule_chans (s : State) : (releaseRule s).chans = s.chans := by
  unfold releaseRule; split; · rfl
  split <;> rfl
@[simp] theorem releaseRule_waiting (s : State) : (releaseRule s).waiting = s.waiting := by
  unfold releaseRule; split; · rfl
  split <;> rfl
@[simp] theorem releaseRule_stallLimit (s : State) : (releaseRule s).stallLimit = s.stallLimit := by
  unfold releaseRule; split; · rfl
  split <;> rfl
@[simp] theorem releaseRule_jobs (s : State) : (releaseRule s).jobs = s.jobs := by
  unfold releaseRule; split; · rfl
  split <;> rfl
@[simp] theorem releaseRule_entries (s : State) : (releaseRule s).entries = s.entries := by
  unfold releaseRule; split; · rfl
  split <;> rfl
@[simp] theorem releaseRule_freeBlocks (s : State) : (releaseRule s).freeBlocks = s.freeBlocks := by
  unfold releaseRule; split; · rfl
  split <;> rfl
@[simp] theorem releaseRule_storeLow (s : State) : (releaseRule s).storeLow = s.storeLow := by
  unfold releaseRule; split; · rfl
  split <;> rfl
@[simp] theorem releaseRule_lowMark (s : State) : (releaseRule s).lowMark = s.lowMark := by
  unfold releaseRule; split; · rfl
  split <;> rfl
@[simp] theorem releaseRule_lowSeen (s : State) : (releaseRule s).lowSeen = s.lowSeen := by
  unfold releaseRule; split; · rfl
  split <;> rfl
@[simp] theorem releaseRule_globalTarget (s : State) : (releaseRule s).globalTarget = s.globalTarget := by
  unfold releaseRule; split; · rfl
  split <;> rfl
@[simp] theorem releaseRule_store (s : State) : (releaseRule s).store = s.store := by
  unfold releaseRule; split; · rfl
  split <;> rfl
@[simp] theorem releaseRule_templates (s : State) : (releaseRule s).templates = s.templates := by
  unfold releaseRule; split; · rfl
  split <;> rfl
@[simp] theorem releaseRule_fonts (s : State) : (releaseRule s).fonts = s.fonts := by
  unfold releaseRule; split; · rfl
  split <;> rfl
@[simp] theorem releaseRule_pages (s : State) : (releaseRule s).pages = s.pages := by
  unfold releaseRule; split; · rfl
  split <;> rfl
@[simp] theorem releaseRule_compositor (s : State) : (releaseRule s).compositor = s.compositor := by
  unfold releaseRule; split; · rfl
  split <;> rfl
@[simp] theorem releaseRule_freeBuffers (s : State) : (releaseRule s).freeBuffers = s.freeBuffers := by
  unfold releaseRule; split; · rfl
  split <;> rfl
@[simp] theorem releaseRule_lead (s : State) : (releaseRule s).lead = s.lead := by
  unfold releaseRule; split; · rfl
  split <;> rfl
@[simp] theorem releaseRule_offer (s : State) : (releaseRule s).offer = s.offer := by
  unfold releaseRule; split; · rfl
  split <;> rfl
@[simp] theorem releaseRule_path (s : State) : (releaseRule s).path = s.path := by
  unfold releaseRule; split; · rfl
  split <;> rfl
@[simp] theorem releaseRule_cursor (s : State) : (releaseRule s).cursor = s.cursor := by
  unfold releaseRule; split; · rfl
  split <;> rfl
@[simp] theorem releaseRule_sending (s : State) : (releaseRule s).sending = s.sending := by
  unfold releaseRule; split; · rfl
  split <;> rfl
@[simp] theorem releaseRule_purge (s : State) : (releaseRule s).purge = s.purge := by
  unfold releaseRule; split; · rfl
  split <;> rfl
@[simp] theorem releaseRule_headCounters (s : State) : (releaseRule s).headCounters = s.headCounters := by
  unfold releaseRule; split; · rfl
  split <;> rfl

@[simp] theorem post_pending (n : Notice) (s : State) : (post n s).pending = s.pending := by
  unfold post; split <;> simp
@[simp] theorem post_order (n : Notice) (s : State) : (post n s).order = s.order := by
  unfold post; split <;> simp
@[simp] theorem post_now (n : Notice) (s : State) : (post n s).now = s.now := by
  unfold post; split <;> simp
@[simp] theorem post_inReset (n : Notice) (s : State) : (post n s).inReset = s.inReset := by
  unfold post; split <;> simp
@[simp] theorem post_chans (n : Notice) (s : State) : (post n s).chans = s.chans := by
  unfold post; split <;> simp
@[simp] theorem post_waiting (n : Notice) (s : State) : (post n s).waiting = s.waiting := by
  unfold post; split <;> simp
@[simp] theorem post_stallLimit (n : Notice) (s : State) : (post n s).stallLimit = s.stallLimit := by
  unfold post; split <;> simp
@[simp] theorem post_jobs (n : Notice) (s : State) : (post n s).jobs = s.jobs := by
  unfold post; split <;> simp
@[simp] theorem post_entries (n : Notice) (s : State) : (post n s).entries = s.entries := by
  unfold post; split <;> simp
@[simp] theorem post_freeBlocks (n : Notice) (s : State) : (post n s).freeBlocks = s.freeBlocks := by
  unfold post; split <;> simp
@[simp] theorem post_storeLow (n : Notice) (s : State) : (post n s).storeLow = s.storeLow := by
  unfold post; split <;> simp
@[simp] theorem post_lowMark (n : Notice) (s : State) : (post n s).lowMark = s.lowMark := by
  unfold post; split <;> simp
@[simp] theorem post_lowSeen (n : Notice) (s : State) : (post n s).lowSeen = s.lowSeen := by
  unfold post; split <;> simp
@[simp] theorem post_globalTarget (n : Notice) (s : State) : (post n s).globalTarget = s.globalTarget := by
  unfold post; split <;> simp
@[simp] theorem post_store (n : Notice) (s : State) : (post n s).store = s.store := by
  unfold post; split <;> simp
@[simp] theorem post_templates (n : Notice) (s : State) : (post n s).templates = s.templates := by
  unfold post; split <;> simp
@[simp] theorem post_fonts (n : Notice) (s : State) : (post n s).fonts = s.fonts := by
  unfold post; split <;> simp
@[simp] theorem post_pages (n : Notice) (s : State) : (post n s).pages = s.pages := by
  unfold post; split <;> simp
@[simp] theorem post_compositor (n : Notice) (s : State) : (post n s).compositor = s.compositor := by
  unfold post; split <;> simp
@[simp] theorem post_freeBuffers (n : Notice) (s : State) : (post n s).freeBuffers = s.freeBuffers := by
  unfold post; split <;> simp
@[simp] theorem post_lead (n : Notice) (s : State) : (post n s).lead = s.lead := by
  unfold post; split <;> simp
@[simp] theorem post_offer (n : Notice) (s : State) : (post n s).offer = s.offer := by
  unfold post; split <;> simp
@[simp] theorem post_path (n : Notice) (s : State) : (post n s).path = s.path := by
  unfold post; split <;> simp
@[simp] theorem post_cursor (n : Notice) (s : State) : (post n s).cursor = s.cursor := by
  unfold post; split <;> simp
@[simp] theorem post_sending (n : Notice) (s : State) : (post n s).sending = s.sending := by
  unfold post; split <;> simp
@[simp] theorem post_purge (n : Notice) (s : State) : (post n s).purge = s.purge := by
  unfold post; split <;> simp
@[simp] theorem post_headCounters (n : Notice) (s : State) : (post n s).headCounters = s.headCounters := by
  unfold post; split <;> simp

@[simp] theorem notify_pending (code : NoticeCode) (tag subject : Nat) (detail : List Item) (s : State) : (notify code tag subject detail s).pending = s.pending := post_pending _ s
@[simp] theorem notify_order (code : NoticeCode) (tag subject : Nat) (detail : List Item) (s : State) : (notify code tag subject detail s).order = s.order := post_order _ s
@[simp] theorem notify_now (code : NoticeCode) (tag subject : Nat) (detail : List Item) (s : State) : (notify code tag subject detail s).now = s.now := post_now _ s
@[simp] theorem notify_inReset (code : NoticeCode) (tag subject : Nat) (detail : List Item) (s : State) : (notify code tag subject detail s).inReset = s.inReset := post_inReset _ s
@[simp] theorem notify_chans (code : NoticeCode) (tag subject : Nat) (detail : List Item) (s : State) : (notify code tag subject detail s).chans = s.chans := post_chans _ s
@[simp] theorem notify_waiting (code : NoticeCode) (tag subject : Nat) (detail : List Item) (s : State) : (notify code tag subject detail s).waiting = s.waiting := post_waiting _ s
@[simp] theorem notify_stallLimit (code : NoticeCode) (tag subject : Nat) (detail : List Item) (s : State) : (notify code tag subject detail s).stallLimit = s.stallLimit := post_stallLimit _ s
@[simp] theorem notify_jobs (code : NoticeCode) (tag subject : Nat) (detail : List Item) (s : State) : (notify code tag subject detail s).jobs = s.jobs := post_jobs _ s
@[simp] theorem notify_entries (code : NoticeCode) (tag subject : Nat) (detail : List Item) (s : State) : (notify code tag subject detail s).entries = s.entries := post_entries _ s
@[simp] theorem notify_freeBlocks (code : NoticeCode) (tag subject : Nat) (detail : List Item) (s : State) : (notify code tag subject detail s).freeBlocks = s.freeBlocks := post_freeBlocks _ s
@[simp] theorem notify_storeLow (code : NoticeCode) (tag subject : Nat) (detail : List Item) (s : State) : (notify code tag subject detail s).storeLow = s.storeLow := post_storeLow _ s
@[simp] theorem notify_lowMark (code : NoticeCode) (tag subject : Nat) (detail : List Item) (s : State) : (notify code tag subject detail s).lowMark = s.lowMark := post_lowMark _ s
@[simp] theorem notify_lowSeen (code : NoticeCode) (tag subject : Nat) (detail : List Item) (s : State) : (notify code tag subject detail s).lowSeen = s.lowSeen := post_lowSeen _ s
@[simp] theorem notify_globalTarget (code : NoticeCode) (tag subject : Nat) (detail : List Item) (s : State) : (notify code tag subject detail s).globalTarget = s.globalTarget := post_globalTarget _ s
@[simp] theorem notify_store (code : NoticeCode) (tag subject : Nat) (detail : List Item) (s : State) : (notify code tag subject detail s).store = s.store := post_store _ s
@[simp] theorem notify_templates (code : NoticeCode) (tag subject : Nat) (detail : List Item) (s : State) : (notify code tag subject detail s).templates = s.templates := post_templates _ s
@[simp] theorem notify_fonts (code : NoticeCode) (tag subject : Nat) (detail : List Item) (s : State) : (notify code tag subject detail s).fonts = s.fonts := post_fonts _ s
@[simp] theorem notify_pages (code : NoticeCode) (tag subject : Nat) (detail : List Item) (s : State) : (notify code tag subject detail s).pages = s.pages := post_pages _ s
@[simp] theorem notify_compositor (code : NoticeCode) (tag subject : Nat) (detail : List Item) (s : State) : (notify code tag subject detail s).compositor = s.compositor := post_compositor _ s
@[simp] theorem notify_freeBuffers (code : NoticeCode) (tag subject : Nat) (detail : List Item) (s : State) : (notify code tag subject detail s).freeBuffers = s.freeBuffers := post_freeBuffers _ s
@[simp] theorem notify_lead (code : NoticeCode) (tag subject : Nat) (detail : List Item) (s : State) : (notify code tag subject detail s).lead = s.lead := post_lead _ s
@[simp] theorem notify_offer (code : NoticeCode) (tag subject : Nat) (detail : List Item) (s : State) : (notify code tag subject detail s).offer = s.offer := post_offer _ s
@[simp] theorem notify_path (code : NoticeCode) (tag subject : Nat) (detail : List Item) (s : State) : (notify code tag subject detail s).path = s.path := post_path _ s
@[simp] theorem notify_cursor (code : NoticeCode) (tag subject : Nat) (detail : List Item) (s : State) : (notify code tag subject detail s).cursor = s.cursor := post_cursor _ s
@[simp] theorem notify_sending (code : NoticeCode) (tag subject : Nat) (detail : List Item) (s : State) : (notify code tag subject detail s).sending = s.sending := post_sending _ s
@[simp] theorem notify_purge (code : NoticeCode) (tag subject : Nat) (detail : List Item) (s : State) : (notify code tag subject detail s).purge = s.purge := post_purge _ s
@[simp] theorem notify_headCounters (code : NoticeCode) (tag subject : Nat) (detail : List Item) (s : State) : (notify code tag subject detail s).headCounters = s.headCounters := post_headCounters _ s

@[simp] theorem storeReply_pending (r : Reply) (s : State) : (storeReply r s).pending = s.pending := by
  unfold storeReply; split <;> simp
@[simp] theorem storeReply_order (r : Reply) (s : State) : (storeReply r s).order = s.order := by
  unfold storeReply; split <;> simp
@[simp] theorem storeReply_now (r : Reply) (s : State) : (storeReply r s).now = s.now := by
  unfold storeReply; split <;> simp
@[simp] theorem storeReply_inReset (r : Reply) (s : State) : (storeReply r s).inReset = s.inReset := by
  unfold storeReply; split <;> simp
@[simp] theorem storeReply_chans (r : Reply) (s : State) : (storeReply r s).chans = s.chans := by
  unfold storeReply; split <;> simp
@[simp] theorem storeReply_waiting (r : Reply) (s : State) : (storeReply r s).waiting = s.waiting := by
  unfold storeReply; split <;> simp
@[simp] theorem storeReply_stallLimit (r : Reply) (s : State) : (storeReply r s).stallLimit = s.stallLimit := by
  unfold storeReply; split <;> simp
@[simp] theorem storeReply_jobs (r : Reply) (s : State) : (storeReply r s).jobs = s.jobs := by
  unfold storeReply; split <;> simp
@[simp] theorem storeReply_entries (r : Reply) (s : State) : (storeReply r s).entries = s.entries := by
  unfold storeReply; split <;> simp
@[simp] theorem storeReply_freeBlocks (r : Reply) (s : State) : (storeReply r s).freeBlocks = s.freeBlocks := by
  unfold storeReply; split <;> simp
@[simp] theorem storeReply_storeLow (r : Reply) (s : State) : (storeReply r s).storeLow = s.storeLow := by
  unfold storeReply; split <;> simp
@[simp] theorem storeReply_lowMark (r : Reply) (s : State) : (storeReply r s).lowMark = s.lowMark := by
  unfold storeReply; split <;> simp
@[simp] theorem storeReply_lowSeen (r : Reply) (s : State) : (storeReply r s).lowSeen = s.lowSeen := by
  unfold storeReply; split <;> simp
@[simp] theorem storeReply_globalTarget (r : Reply) (s : State) : (storeReply r s).globalTarget = s.globalTarget := by
  unfold storeReply; split <;> simp
@[simp] theorem storeReply_store (r : Reply) (s : State) : (storeReply r s).store = s.store := by
  unfold storeReply; split <;> simp
@[simp] theorem storeReply_templates (r : Reply) (s : State) : (storeReply r s).templates = s.templates := by
  unfold storeReply; split <;> simp
@[simp] theorem storeReply_fonts (r : Reply) (s : State) : (storeReply r s).fonts = s.fonts := by
  unfold storeReply; split <;> simp
@[simp] theorem storeReply_pages (r : Reply) (s : State) : (storeReply r s).pages = s.pages := by
  unfold storeReply; split <;> simp
@[simp] theorem storeReply_compositor (r : Reply) (s : State) : (storeReply r s).compositor = s.compositor := by
  unfold storeReply; split <;> simp
@[simp] theorem storeReply_freeBuffers (r : Reply) (s : State) : (storeReply r s).freeBuffers = s.freeBuffers := by
  unfold storeReply; split <;> simp
@[simp] theorem storeReply_lead (r : Reply) (s : State) : (storeReply r s).lead = s.lead := by
  unfold storeReply; split <;> simp
@[simp] theorem storeReply_offer (r : Reply) (s : State) : (storeReply r s).offer = s.offer := by
  unfold storeReply; split <;> simp
@[simp] theorem storeReply_path (r : Reply) (s : State) : (storeReply r s).path = s.path := by
  unfold storeReply; split <;> simp
@[simp] theorem storeReply_cursor (r : Reply) (s : State) : (storeReply r s).cursor = s.cursor := by
  unfold storeReply; split <;> simp
@[simp] theorem storeReply_sending (r : Reply) (s : State) : (storeReply r s).sending = s.sending := by
  unfold storeReply; split <;> simp
@[simp] theorem storeReply_purge (r : Reply) (s : State) : (storeReply r s).purge = s.purge := by
  unfold storeReply; split <;> simp
@[simp] theorem storeReply_headCounters (r : Reply) (s : State) : (storeReply r s).headCounters = s.headCounters := by
  unfold storeReply; split <;> simp

@[simp] theorem judgeStore_pending (tag : Nat) (s : State) : (judgeStore tag s).pending = s.pending := by
  unfold judgeStore; split <;> split <;> simp
@[simp] theorem judgeStore_order (tag : Nat) (s : State) : (judgeStore tag s).order = s.order := by
  unfold judgeStore; split <;> split <;> simp
@[simp] theorem judgeStore_now (tag : Nat) (s : State) : (judgeStore tag s).now = s.now := by
  unfold judgeStore; split <;> split <;> simp
@[simp] theorem judgeStore_inReset (tag : Nat) (s : State) : (judgeStore tag s).inReset = s.inReset := by
  unfold judgeStore; split <;> split <;> simp
@[simp] theorem judgeStore_chans (tag : Nat) (s : State) : (judgeStore tag s).chans = s.chans := by
  unfold judgeStore; split <;> split <;> simp
@[simp] theorem judgeStore_waiting (tag : Nat) (s : State) : (judgeStore tag s).waiting = s.waiting := by
  unfold judgeStore; split <;> split <;> simp
@[simp] theorem judgeStore_stallLimit (tag : Nat) (s : State) : (judgeStore tag s).stallLimit = s.stallLimit := by
  unfold judgeStore; split <;> split <;> simp
@[simp] theorem judgeStore_jobs (tag : Nat) (s : State) : (judgeStore tag s).jobs = s.jobs := by
  unfold judgeStore; split <;> split <;> simp
@[simp] theorem judgeStore_entries (tag : Nat) (s : State) : (judgeStore tag s).entries = s.entries := by
  unfold judgeStore; split <;> split <;> simp
@[simp] theorem judgeStore_freeBlocks (tag : Nat) (s : State) : (judgeStore tag s).freeBlocks = s.freeBlocks := by
  unfold judgeStore; split <;> split <;> simp
@[simp] theorem judgeStore_lowMark (tag : Nat) (s : State) : (judgeStore tag s).lowMark = s.lowMark := by
  unfold judgeStore; split <;> split <;> simp
@[simp] theorem judgeStore_globalTarget (tag : Nat) (s : State) : (judgeStore tag s).globalTarget = s.globalTarget := by
  unfold judgeStore; split <;> split <;> simp
@[simp] theorem judgeStore_store (tag : Nat) (s : State) : (judgeStore tag s).store = s.store := by
  unfold judgeStore; split <;> split <;> simp
@[simp] theorem judgeStore_templates (tag : Nat) (s : State) : (judgeStore tag s).templates = s.templates := by
  unfold judgeStore; split <;> split <;> simp
@[simp] theorem judgeStore_fonts (tag : Nat) (s : State) : (judgeStore tag s).fonts = s.fonts := by
  unfold judgeStore; split <;> split <;> simp
@[simp] theorem judgeStore_pages (tag : Nat) (s : State) : (judgeStore tag s).pages = s.pages := by
  unfold judgeStore; split <;> split <;> simp
@[simp] theorem judgeStore_compositor (tag : Nat) (s : State) : (judgeStore tag s).compositor = s.compositor := by
  unfold judgeStore; split <;> split <;> simp
@[simp] theorem judgeStore_freeBuffers (tag : Nat) (s : State) : (judgeStore tag s).freeBuffers = s.freeBuffers := by
  unfold judgeStore; split <;> split <;> simp
@[simp] theorem judgeStore_lead (tag : Nat) (s : State) : (judgeStore tag s).lead = s.lead := by
  unfold judgeStore; split <;> split <;> simp
@[simp] theorem judgeStore_offer (tag : Nat) (s : State) : (judgeStore tag s).offer = s.offer := by
  unfold judgeStore; split <;> split <;> simp
@[simp] theorem judgeStore_path (tag : Nat) (s : State) : (judgeStore tag s).path = s.path := by
  unfold judgeStore; split <;> split <;> simp
@[simp] theorem judgeStore_cursor (tag : Nat) (s : State) : (judgeStore tag s).cursor = s.cursor := by
  unfold judgeStore; split <;> split <;> simp
@[simp] theorem judgeStore_sending (tag : Nat) (s : State) : (judgeStore tag s).sending = s.sending := by
  unfold judgeStore; split <;> split <;> simp
@[simp] theorem judgeStore_purge (tag : Nat) (s : State) : (judgeStore tag s).purge = s.purge := by
  unfold judgeStore; split <;> split <;> simp
@[simp] theorem judgeStore_headCounters (tag : Nat) (s : State) : (judgeStore tag s).headCounters = s.headCounters := by
  unfold judgeStore; split <;> split <;> simp

@[simp] theorem sendReady_pending (mark : Bool) (s : State) : (sendReady mark s).pending = s.pending := rfl
@[simp] theorem sendReady_order (mark : Bool) (s : State) : (sendReady mark s).order = s.order := rfl
@[simp] theorem sendReady_now (mark : Bool) (s : State) : (sendReady mark s).now = s.now := rfl
@[simp] theorem sendReady_wake (mark : Bool) (s : State) : (sendReady mark s).wake = s.wake := rfl
@[simp] theorem sendReady_inReset (mark : Bool) (s : State) : (sendReady mark s).inReset = s.inReset := rfl
@[simp] theorem sendReady_chans (mark : Bool) (s : State) : (sendReady mark s).chans = s.chans := rfl
@[simp] theorem sendReady_waiting (mark : Bool) (s : State) : (sendReady mark s).waiting = s.waiting := rfl
@[simp] theorem sendReady_stallLimit (mark : Bool) (s : State) : (sendReady mark s).stallLimit = s.stallLimit := rfl
@[simp] theorem sendReady_jobs (mark : Bool) (s : State) : (sendReady mark s).jobs = s.jobs := rfl
@[simp] theorem sendReady_entries (mark : Bool) (s : State) : (sendReady mark s).entries = s.entries := rfl
@[simp] theorem sendReady_freeBlocks (mark : Bool) (s : State) : (sendReady mark s).freeBlocks = s.freeBlocks := rfl
@[simp] theorem sendReady_storeLow (mark : Bool) (s : State) : (sendReady mark s).storeLow = s.storeLow := rfl
@[simp] theorem sendReady_lowMark (mark : Bool) (s : State) : (sendReady mark s).lowMark = s.lowMark := rfl
@[simp] theorem sendReady_lowSeen (mark : Bool) (s : State) : (sendReady mark s).lowSeen = s.lowSeen := rfl
@[simp] theorem sendReady_globalTarget (mark : Bool) (s : State) : (sendReady mark s).globalTarget = s.globalTarget := rfl
@[simp] theorem sendReady_store (mark : Bool) (s : State) : (sendReady mark s).store = s.store := rfl
@[simp] theorem sendReady_templates (mark : Bool) (s : State) : (sendReady mark s).templates = s.templates := rfl
@[simp] theorem sendReady_fonts (mark : Bool) (s : State) : (sendReady mark s).fonts = s.fonts := rfl
@[simp] theorem sendReady_pages (mark : Bool) (s : State) : (sendReady mark s).pages = s.pages := rfl
@[simp] theorem sendReady_compositor (mark : Bool) (s : State) : (sendReady mark s).compositor = s.compositor := rfl
@[simp] theorem sendReady_freeBuffers (mark : Bool) (s : State) : (sendReady mark s).freeBuffers = s.freeBuffers := rfl
@[simp] theorem sendReady_lead (mark : Bool) (s : State) : (sendReady mark s).lead = s.lead := rfl
@[simp] theorem sendReady_offer (mark : Bool) (s : State) : (sendReady mark s).offer = s.offer := rfl
@[simp] theorem sendReady_path (mark : Bool) (s : State) : (sendReady mark s).path = s.path := rfl
@[simp] theorem sendReady_cursor (mark : Bool) (s : State) : (sendReady mark s).cursor = s.cursor := rfl
@[simp] theorem sendReady_sending (mark : Bool) (s : State) : (sendReady mark s).sending = s.sending := rfl
@[simp] theorem sendReady_purge (mark : Bool) (s : State) : (sendReady mark s).purge = s.purge := rfl
@[simp] theorem sendReady_headCounters (mark : Bool) (s : State) : (sendReady mark s).headCounters = s.headCounters := rfl
@[simp] theorem sendReady_returnQueue (mark : Bool) (s : State) : (sendReady mark s).returnQueue = s.returnQueue := rfl
@[simp] theorem sendReady_gates (mark : Bool) (s : State) : (sendReady mark s).gates = s.gates := rfl
@[simp] theorem sendReady_returnChannel (mark : Bool) (s : State) : (sendReady mark s).returnChannel = s.returnChannel := rfl

@[simp] theorem evalReady_pending (ch : Chan) (s : State) : (evalReady ch s).pending = s.pending := by
  unfold evalReady; split <;> rfl
@[simp] theorem evalReady_order (ch : Chan) (s : State) : (evalReady ch s).order = s.order := by
  unfold evalReady; split <;> rfl
@[simp] theorem evalReady_now (ch : Chan) (s : State) : (evalReady ch s).now = s.now := by
  unfold evalReady; split <;> rfl
@[simp] theorem evalReady_wake (ch : Chan) (s : State) : (evalReady ch s).wake = s.wake := by
  unfold evalReady; split <;> rfl
@[simp] theorem evalReady_inReset (ch : Chan) (s : State) : (evalReady ch s).inReset = s.inReset := by
  unfold evalReady; split <;> rfl
@[simp] theorem evalReady_waiting (ch : Chan) (s : State) : (evalReady ch s).waiting = s.waiting := by
  unfold evalReady; split <;> rfl
@[simp] theorem evalReady_stallLimit (ch : Chan) (s : State) : (evalReady ch s).stallLimit = s.stallLimit := by
  unfold evalReady; split <;> rfl
@[simp] theorem evalReady_jobs (ch : Chan) (s : State) : (evalReady ch s).jobs = s.jobs := by
  unfold evalReady; split <;> rfl
@[simp] theorem evalReady_entries (ch : Chan) (s : State) : (evalReady ch s).entries = s.entries := by
  unfold evalReady; split <;> rfl
@[simp] theorem evalReady_freeBlocks (ch : Chan) (s : State) : (evalReady ch s).freeBlocks = s.freeBlocks := by
  unfold evalReady; split <;> rfl
@[simp] theorem evalReady_storeLow (ch : Chan) (s : State) : (evalReady ch s).storeLow = s.storeLow := by
  unfold evalReady; split <;> rfl
@[simp] theorem evalReady_lowMark (ch : Chan) (s : State) : (evalReady ch s).lowMark = s.lowMark := by
  unfold evalReady; split <;> rfl
@[simp] theorem evalReady_lowSeen (ch : Chan) (s : State) : (evalReady ch s).lowSeen = s.lowSeen := by
  unfold evalReady; split <;> rfl
@[simp] theorem evalReady_globalTarget (ch : Chan) (s : State) : (evalReady ch s).globalTarget = s.globalTarget := by
  unfold evalReady; split <;> rfl
@[simp] theorem evalReady_store (ch : Chan) (s : State) : (evalReady ch s).store = s.store := by
  unfold evalReady; split <;> rfl
@[simp] theorem evalReady_templates (ch : Chan) (s : State) : (evalReady ch s).templates = s.templates := by
  unfold evalReady; split <;> rfl
@[simp] theorem evalReady_fonts (ch : Chan) (s : State) : (evalReady ch s).fonts = s.fonts := by
  unfold evalReady; split <;> rfl
@[simp] theorem evalReady_pages (ch : Chan) (s : State) : (evalReady ch s).pages = s.pages := by
  unfold evalReady; split <;> rfl
@[simp] theorem evalReady_compositor (ch : Chan) (s : State) : (evalReady ch s).compositor = s.compositor := by
  unfold evalReady; split <;> rfl
@[simp] theorem evalReady_freeBuffers (ch : Chan) (s : State) : (evalReady ch s).freeBuffers = s.freeBuffers := by
  unfold evalReady; split <;> rfl
@[simp] theorem evalReady_lead (ch : Chan) (s : State) : (evalReady ch s).lead = s.lead := by
  unfold evalReady; split <;> rfl
@[simp] theorem evalReady_offer (ch : Chan) (s : State) : (evalReady ch s).offer = s.offer := by
  unfold evalReady; split <;> rfl
@[simp] theorem evalReady_path (ch : Chan) (s : State) : (evalReady ch s).path = s.path := by
  unfold evalReady; split <;> rfl
@[simp] theorem evalReady_cursor (ch : Chan) (s : State) : (evalReady ch s).cursor = s.cursor := by
  unfold evalReady; split <;> rfl
@[simp] theorem evalReady_sending (ch : Chan) (s : State) : (evalReady ch s).sending = s.sending := by
  unfold evalReady; split <;> rfl
@[simp] theorem evalReady_purge (ch : Chan) (s : State) : (evalReady ch s).purge = s.purge := by
  unfold evalReady; split <;> rfl
@[simp] theorem evalReady_headCounters (ch : Chan) (s : State) : (evalReady ch s).headCounters = s.headCounters := by
  unfold evalReady; split <;> rfl
@[simp] theorem evalReady_returnQueue (ch : Chan) (s : State) : (evalReady ch s).returnQueue = s.returnQueue := by
  unfold evalReady; split <;> rfl
@[simp] theorem evalReady_gates (ch : Chan) (s : State) : (evalReady ch s).gates = s.gates := by
  unfold evalReady; split <;> rfl
@[simp] theorem evalReady_returnChannel (ch : Chan) (s : State) : (evalReady ch s).returnChannel = s.returnChannel := by
  unfold evalReady; split <;> rfl

@[simp] theorem dropFront_pending (ch : Chan) (len : Nat) (s : State) : (dropFront ch len s).pending = s.pending := by
  simp [dropFront]
@[simp] theorem dropFront_order (ch : Chan) (len : Nat) (s : State) : (dropFront ch len s).order = s.order := by
  simp [dropFront]
@[simp] theorem dropFront_now (ch : Chan) (len : Nat) (s : State) : (dropFront ch len s).now = s.now := by
  simp [dropFront]
@[simp] theorem dropFront_wake (ch : Chan) (len : Nat) (s : State) : (dropFront ch len s).wake = s.wake := by
  simp [dropFront]
@[simp] theorem dropFront_inReset (ch : Chan) (len : Nat) (s : State) : (dropFront ch len s).inReset = s.inReset := by
  simp [dropFront]
@[simp] theorem dropFront_waiting (ch : Chan) (len : Nat) (s : State) : (dropFront ch len s).waiting = s.waiting := by
  simp [dropFront]
@[simp] theorem dropFront_stallLimit (ch : Chan) (len : Nat) (s : State) : (dropFront ch len s).stallLimit = s.stallLimit := by
  simp [dropFront]
@[simp] theorem dropFront_jobs (ch : Chan) (len : Nat) (s : State) : (dropFront ch len s).jobs = s.jobs := by
  simp [dropFront]
@[simp] theorem dropFront_entries (ch : Chan) (len : Nat) (s : State) : (dropFront ch len s).entries = s.entries := by
  simp [dropFront]
@[simp] theorem dropFront_freeBlocks (ch : Chan) (len : Nat) (s : State) : (dropFront ch len s).freeBlocks = s.freeBlocks := by
  simp [dropFront]
@[simp] theorem dropFront_storeLow (ch : Chan) (len : Nat) (s : State) : (dropFront ch len s).storeLow = s.storeLow := by
  simp [dropFront]
@[simp] theorem dropFront_lowMark (ch : Chan) (len : Nat) (s : State) : (dropFront ch len s).lowMark = s.lowMark := by
  simp [dropFront]
@[simp] theorem dropFront_lowSeen (ch : Chan) (len : Nat) (s : State) : (dropFront ch len s).lowSeen = s.lowSeen := by
  simp [dropFront]
@[simp] theorem dropFront_globalTarget (ch : Chan) (len : Nat) (s : State) : (dropFront ch len s).globalTarget = s.globalTarget := by
  simp [dropFront]
@[simp] theorem dropFront_store (ch : Chan) (len : Nat) (s : State) : (dropFront ch len s).store = s.store := by
  simp [dropFront]
@[simp] theorem dropFront_templates (ch : Chan) (len : Nat) (s : State) : (dropFront ch len s).templates = s.templates := by
  simp [dropFront]
@[simp] theorem dropFront_fonts (ch : Chan) (len : Nat) (s : State) : (dropFront ch len s).fonts = s.fonts := by
  simp [dropFront]
@[simp] theorem dropFront_pages (ch : Chan) (len : Nat) (s : State) : (dropFront ch len s).pages = s.pages := by
  simp [dropFront]
@[simp] theorem dropFront_compositor (ch : Chan) (len : Nat) (s : State) : (dropFront ch len s).compositor = s.compositor := by
  simp [dropFront]
@[simp] theorem dropFront_freeBuffers (ch : Chan) (len : Nat) (s : State) : (dropFront ch len s).freeBuffers = s.freeBuffers := by
  simp [dropFront]
@[simp] theorem dropFront_lead (ch : Chan) (len : Nat) (s : State) : (dropFront ch len s).lead = s.lead := by
  simp [dropFront]
@[simp] theorem dropFront_offer (ch : Chan) (len : Nat) (s : State) : (dropFront ch len s).offer = s.offer := by
  simp [dropFront]
@[simp] theorem dropFront_path (ch : Chan) (len : Nat) (s : State) : (dropFront ch len s).path = s.path := by
  simp [dropFront]
@[simp] theorem dropFront_cursor (ch : Chan) (len : Nat) (s : State) : (dropFront ch len s).cursor = s.cursor := by
  simp [dropFront]
@[simp] theorem dropFront_sending (ch : Chan) (len : Nat) (s : State) : (dropFront ch len s).sending = s.sending := by
  simp [dropFront]
@[simp] theorem dropFront_purge (ch : Chan) (len : Nat) (s : State) : (dropFront ch len s).purge = s.purge := by
  simp [dropFront]
@[simp] theorem dropFront_headCounters (ch : Chan) (len : Nat) (s : State) : (dropFront ch len s).headCounters = s.headCounters := by
  simp [dropFront]
@[simp] theorem dropFront_returnQueue (ch : Chan) (len : Nat) (s : State) : (dropFront ch len s).returnQueue = s.returnQueue := by
  simp [dropFront]
@[simp] theorem dropFront_gates (ch : Chan) (len : Nat) (s : State) : (dropFront ch len s).gates = s.gates := by
  simp [dropFront]
@[simp] theorem dropFront_returnChannel (ch : Chan) (len : Nat) (s : State) : (dropFront ch len s).returnChannel = s.returnChannel := by
  simp [dropFront]

/-! ## What each operation can do -/

/-- The release rule leaves the state as it is, or releases the oldest releasable candidate of an IDLE return channel: the
entry leaves the queue, its class's last release becomes now, its overrun flag is cleared, its transfer begins, and an
examination is owed (R168, R169). -/
theorem releaseRule_cases (s : State) :
    releaseRule s = s ∨
    ∃ h rest, s.returnChannel = none ∧ s.pickReleasable [] s.returnQueue = some (h, rest) ∧
      releaseRule s =
        { s with
          wake := true
          out := s.out ++ [.returnBegin { item := h.item, mark := s.gates[classIndex h.cls].overrun }]
          returnQueue := rest
          gates := s.gates.set (classIndex h.cls)
            { s.gates[classIndex h.cls] with last := some s.now, overrun := false }
          returnChannel := some { item := h.item, mark := s.gates[classIndex h.cls].overrun } } := by
  unfold releaseRule
  split
  · exact .inl rfl
  · split
    · exact .inl rfl
    · rename_i hn _ h rest hp
      exact .inr ⟨h, rest, hn, hp, rfl⟩

/-- A posted notice is stored, or it is lost and its class's overrun flag set; then the release rule is applied (R164, R168,
R169). -/
theorem post_cases (n : Notice) (s : State) :
    (s.noticesHeld < Config.noticeEntries ∧ s.returnQueue.length < Config.returnEntries ∧
      post n s = releaseRule { s with returnQueue := s.returnQueue ++ [{ item := .notice n, flushed := false }] }) ∨
    ((Config.noticeEntries ≤ s.noticesHeld ∨ Config.returnEntries ≤ s.returnQueue.length) ∧
      post n s = releaseRule (setOverrun n.code.cls s)) := by
  unfold post
  split
  · rename_i h
    simp only [Bool.and_eq_true, decide_eq_true_eq] at h
    exact .inl ⟨h.1, h.2, rfl⟩
  · rename_i h
    simp only [Bool.and_eq_true, decide_eq_true_eq] at h
    exact .inr ⟨by omega, rfl⟩

/-- A reply is stored in any free entry, or with 64 held it is lost and the REPLY class's overrun flag set; then the release rule
is applied (R164, R168, R176). -/
theorem storeReply_cases (r : Reply) (s : State) :
    (s.returnQueue.length < Config.returnEntries ∧
      storeReply r s = releaseRule { s with returnQueue := s.returnQueue ++ [{ item := .reply r, flushed := false }] }) ∨
    (Config.returnEntries ≤ s.returnQueue.length ∧ storeReply r s = releaseRule (setOverrun .reply s)) := by
  unfold storeReply
  split
  · rename_i h; exact .inl ⟨h, rfl⟩
  · rename_i h; exact .inr ⟨by omega, rfl⟩

/-- The store low state is left as it is, or moves to LOW, setting store-low-seen and posting STORE-LOW, or moves to NORMAL,
posting STORE-RECOVERED (R55). -/
theorem judgeStore_cases (tag : Nat) (s : State) :
    judgeStore tag s = s ∨
    (s.storeLow = false ∧ s.freeCount < s.lowMark ∧
      judgeStore tag s = notify .storeLow tag 0 [.four s.freeCount, .four s.lowMark] { s with storeLow := true, lowSeen := true }) ∨
    (s.storeLow = true ∧ recoveryLevel s.lowMark ≤ s.freeCount ∧
      judgeStore tag s = notify .storeRecovered tag 0 [.four s.freeCount, .four s.lowMark] { s with storeLow := false }) := by
  unfold judgeStore
  split
  · rename_i h
    split
    · rename_i h2; exact .inr (.inr ⟨h, h2, rfl⟩)
    · exact .inl rfl
  · rename_i h
    split
    · rename_i h2; exact .inr (.inl ⟨by simpa using h, h2, rfl⟩)
    · exact .inl rfl

/-- A judged store is left as it is. -/
theorem judgeStore_judged (tag : Nat) {s : State} (h : StoreJudged s) : judgeStore tag s = s := by
  unfold StoreJudged at h
  unfold judgeStore
  split
  · rename_i hl
    rw [if_pos hl] at h
    rw [if_neg (Nat.not_le.mpr h)]
  · rename_i hl
    rw [if_neg hl] at h
    rw [if_neg (Nat.not_lt.mpr h)]

/-- The ready indication after an evaluation is the level that the free space and the watermark give, and a READY frame is
sent where it changed (R2). -/
theorem evalReady_cases (ch : Chan) (s : State) :
    (s.chans[ch].ready = s.chans[ch].readyLevel ∧ evalReady ch s = s) ∨
    (s.chans[ch].ready ≠ s.chans[ch].readyLevel ∧
      evalReady ch s = sendReady false (modChan ch (fun c => { c with ready := c.readyLevel }) s)) := by
  unfold evalReady
  split
  · rename_i h; exact .inl ⟨h, rfl⟩
  · rename_i h; exact .inr ⟨h, rfl⟩

/-- A channel's record is deferred: a stall begins, or the entry that stands takes the kind now named (R13). -/
theorem deferRecord_cases (ch : Chan) (kind : Resource) (s : State) :
    (s.stalled ch = true ∧ deferRecord ch kind s =
      { s with waiting := s.waiting.map fun e => if e.ch = ch then { e with kind := kind } else e }) ∨
    (s.stalled ch = false ∧ deferRecord ch kind s =
      modChan ch (fun c => { c with stalls := bump c.stalls })
        { s with waiting := s.waiting ++ [{ ch := ch, kind := kind, start := s.now }] }) := by
  unfold deferRecord
  split
  · rename_i h; exact .inl ⟨h, rfl⟩
  · rename_i h; exact .inr ⟨by simpa using h, rfl⟩

/-- The blocks taken and the blocks left are the blocks there were, in their order (R40). -/
theorem blockNumbers_takeBlocks (n : Nat) (runs : List Run) :
    blockNumbers (takeBlocks n runs).1 ++ blockNumbers (takeBlocks n runs).2 = blockNumbers runs := by
  induction runs generalizing n with
  | nil => simp [takeBlocks, blockNumbers]
  | cons r rest ih =>
    unfold takeBlocks
    split
    · simp [blockNumbers]
    · split
      · have := ih (n - r.count)
        simp only [blockNumbers, List.flatMap_cons, List.append_assoc] at this ⊢
        rw [this]
      · rename_i h0 h
        simp only [blockNumbers, List.flatMap_cons, List.flatMap_nil, List.append_nil, ← List.append_assoc,
          List.append_cancel_right_eq]
        rw [List.range'_append_1, Nat.add_sub_cancel' (by omega)]

theorem runCount_append (a b : List Run) : runCount (a ++ b) = runCount a + runCount b := by simp [runCount]

theorem runCount_cons (r : Run) (rest : List Run) : runCount (r :: rest) = r.count + runCount rest := by simp [runCount]

/-- Joining keeps the number of blocks (R40). -/
theorem runCount_joinRuns (a b : List Run) : runCount (joinRuns a b) = runCount a + runCount b := by
  induction a with
  | nil => simp [joinRuns, runCount]
  | cons r rest ih =>
    cases rest with
    | nil =>
      cases b with
      | nil => simp [joinRuns, runCount]
      | cons q more =>
        simp only [joinRuns]
        split <;> simp [runCount] <;> omega
    | cons r2 more => simp only [joinRuns, runCount_cons] at ih ⊢; omega

/-- Taking keeps the number of blocks (R40). -/
theorem runCount_takeBlocks (n : Nat) (runs : List Run) :
    runCount (takeBlocks n runs).1 + runCount (takeBlocks n runs).2 = runCount runs := by
  induction runs generalizing n with
  | nil => simp [takeBlocks, runCount]
  | cons r rest ih =>
    unfold takeBlocks
    split
    · simp [runCount]
    · split
      · have := ih (n - r.count)
        simp only [runCount_cons] at this ⊢
        omega
      · have h0 : runCount [] = 0 := rfl
        simp only [runCount_cons, h0]
        omega

end Sys2Proof.Machine
end

