-- ==== Sys2Proof/Laws/Moves.lean ====
section
/-! SUPPORT. What a step can do, said once: every step is a run of the moves listed here, each a change of one or two fields
with the facts under which the meanings make it. An invariant that every move keeps is kept by every step. -/

namespace Sys2Proof.Machine

/-! ## The moves -/

/-- The changes of one channel; `lim` bounds the payload of a frame that ends a RESYNC. -/
inductive ChanMove (lim : Nat) (c : Channel) : Channel → Prop where
  | append (p : List Byte) (ha : c.mode = .active) (hp : p.length ≤ c.space) : ChanMove lim c { c with buffer := c.buffer ++ p }
  | drop (n : Nat) : ChanMove lim c { c with buffer := c.buffer.drop n }
  | ready (r : Bool) : ChanMove lim c { c with ready := r }
  | lose (tag : Nat) : ChanMove lim c { c with buffer := [], mode := .resync, binding := .unbound, resetTag := tag }
  | retag (tag : Nat) (h : c.mode = .resync) : ChanMove lim c { c with resetTag := tag }
  | rejoin (p : List Byte) (hp : p.length ≤ lim) :
      ChanMove lim c { c with buffer := p, mode := .active, resetTag := 0 }
  | unbind : ChanMove lim c { c with binding := .unbound }
  | bind (b : Binding) (h : c.binding ≠ .unbound ∨ c.buffer ≠ []) : ChanMove lim c { c with binding := b }
  | taken : ChanMove lim c { c with taken := bump c.taken }
  | refused : ChanMove lim c { c with refused := bump c.refused }
  | discarded : ChanMove lim c { c with discarded := bump c.discarded }
  | dropped : ChanMove lim c { c with dropped := bump c.dropped }
  | stalls : ChanMove lim c { c with stalls := bump c.stalls }
  | flags (o f : Bool) : ChanMove lim c { c with overflow := o, framing := f }
  | watermark (v : Nat) (h : Config.watermarkMin ≤ v ∧ v ≤ Config.watermarkMax) : ChanMove lim c { c with watermark := v }

abbrev ChanMoves (lim : Nat) := Relation.ReflTransGen (ChanMove lim)

/-- How an entry that stands may change: its key, job and the blocks beside the pool's stay; a name is a cleaned one, and a
version is one it held, or has a gain in its range or none. -/
structure EntryStep (e e' : Entry) : Prop where
  key : e'.key = e.key
  job : e'.jobId = e.jobId
  name : e'.name = e.name ∨ ∃ raw, e'.name = nameOf (cleanName Config.nameLength raw).1
  versions : ∀ v ∈ e'.versionList, v.GainLegal ∨ ∃ u ∈ e.versionList, v.state = u.state

/-- How a page record may change beside its band records. -/
structure PageStep (s : State) (p p' : Page) : Prop where
  id : p'.id = p.id
  held : p'.held = p.held
  maxAttempts : p'.maxAttempts = p.maxAttempts
  title : p'.title = p.title
  attempt : p'.attempt = p.attempt ∨ p'.attempt ≤ p.maxAttempts ∨ (p.attempt = 0 ∧ p'.attempt = 1)
  gathering : p'.state = .gathering → p.state = .gathering ∨ s.gatheringPage = none

/-- The moves. -/
inductive Move (lim : Nat) (s : State) : State → Prop where
  /-- The environment's fields, the clock, what is sent, an owed examination, the reset input. -/
  | book (pending : List Instr) (order : List Nat) (now : Nat) (wake : Bool) (out : List Output) (inReset : Bool)
      (hp : ∀ c ∈ pending, c ∈ s.pending) :
      Move lim s { s with pending := pending, order := order, now := now, wake := wake, out := out, inReset := inReset }
  | chan (ch : Chan) (c : Channel) (h : ChanMoves lim s.chans[ch] c) : Move lim s { s with chans := s.chans.set ch c }
  | stall (ch : Chan) (kind : Resource) (h : s.stalled ch = false) :
      Move lim s { s with waiting := s.waiting ++ [{ ch := ch, kind := kind, start := s.now }] }
  | rekind (w : List WaitEntry) (h : w.map (·.ch) = s.waiting.map (·.ch)) : Move lim s { s with waiting := w }
  | unwait (ch : Chan) : Move lim s { s with waiting := s.waiting.filter (·.ch ≠ ch) }
  | noWaiters : Move lim s { s with waiting := [] }
  | stallLimit (v : Nat) (h : Config.stallMin ≤ v ∧ v ≤ Config.stallMax) : Move lim s { s with stallLimit := v }
  | globalTarget (v : Nat) (h : Config.targetMin ≤ v ∧ v ≤ Config.targetMax) : Move lim s { s with globalTarget := v }
  | lead (v : Nat) (h : Config.leadMin ≤ v ∧ v ≤ Config.leadMax) : Move lim s { s with lead := v }
  | lowMark (v : Nat) (h : v ≤ Config.blockCount) : Move lim s { s with lowMark := v }
  | storeState (low seen : Bool) : Move lim s { s with storeLow := low, lowSeen := seen }
  | openJob (j : Job) (hs : s.jobs.length < Config.jobSlots) (hid : s.job? j.id = none)
      (ho : s.jobs.any (·.overlaps j.base j.limit) = false)
      (hf : 1 ≤ j.id ∧ 1 ≤ j.base ∧ j.base ≤ j.limit ∧
        (j.target = 0 ∨ (Config.targetMin ≤ j.target ∧ j.target ≤ Config.targetMax))) :
      Move lim s { s with jobs := s.jobs ++ [j] }
  | job (j j' : Job) (hj : s.job? j.id = some j)
      (h : j'.id = j.id ∧ j'.base = j.base ∧ j'.limit = j.limit ∧ j'.target = j.target) :
      Move lim s { s with jobs := replaceFirst (·.id = j'.id) j' s.jobs }
  /-- A job's window is emptied and its slot freed. -/
  | closeJob (j : Job) (free : List Run)
      (hb : runCount free = runCount s.freeBlocks + ((s.entries.filter fun e => j.holds e.key).map Entry.held).sum) :
      Move lim s { s with entries := s.entries.filter fun e => !j.holds e.key, jobs := removeFirst (·.id = j.id) s.jobs,
                          freeBlocks := free }
  | newEntry (key jobId : Nat) (hk : s.entry? key = none) (hs : s.entries.length < Config.directorySize) :
      Move lim s { s with entries := s.entries ++ [newEntry key jobId] }
  /-- An entry changes, and blocks pass between its versions and the pool. -/
  | entry (e e' : Entry) (free : List Run) (he : s.entry? e.key = some e) (h : EntryStep e e')
      (hb : runCount free + e'.held = runCount s.freeBlocks + e.held) :
      Move lim s { s with entries := replaceFirst (·.key = e'.key) e' s.entries, freeBlocks := free }
  | store (places : List (Nat × Nat)) (bytes : List Byte) : Move lim s { s with store := writePieces places bytes s.store }
  | template (i : Fin 12) (x : Option TemplateBuffer)
      (h : ∀ t, x = some t → t.Legal ∨ ∃ u, s.templates[i] = some u ∧ t.width = u.width ∧ t.height = u.height ∧
        t.bandHeight = u.bandHeight) :
      Move lim s { s with templates := s.templates.set i x }
  | font (i : Fin 2) (f : Font) (h : f.metrics = s.fonts[i].metrics ∨ ∀ m, f.metrics = some m → m.Legal) :
      Move lim s { s with fonts := s.fonts.set i f }
  | newPage (p : Page) (hs : s.pages.length < Config.pageSlots) (hid : s.page? p.id = none)
      (hf : p.id ≠ 0 ∧ 1 ≤ p.maxAttempts ∧ p.maxAttempts ≤ Config.attemptsMax ∧ p.attempt = 0) (hb : p.bands = [])
      (ht : ∃ raw, p.title = nameOf (cleanName Config.titleLength raw).1) (hq : p.state = .queued) :
      Move lim s { s with pages := s.pages ++ [p] }
  | page (p p' : Page) (hp : p ∈ s.pages) (h : PageStep s p p') :
      Move lim s { s with pages := replaceFirst (·.id = p'.id) p' s.pages }
  /-- A page record leaves with its band records. -/
  | removePage (p : Page) (hp : s.page? p.id = some p) (c : Compositor) (free : List Nat)
      (hb : free.length = s.freeBuffers.length + p.held) :
      Move lim s { s with pages := removeFirst (·.id = p.id) s.pages, compositor := c, freeBuffers := free }
  | compositor (c : Compositor) : Move lim s { s with compositor := c }
  /-- Buffers pass from the free list to a new band record. -/
  | beginBand (p : Page) (r : BandRecord) (need : Nat) (c : Compositor) (hp : s.page? p.id = some p)
      (hr : r.buffers = s.freeBuffers.take need) (bands : List BandRecord)
      (hb : (bands.map (·.buffers.length)).sum = r.buffers.length + (p.bands.map (·.buffers.length)).sum) :
      Move lim s { s with freeBuffers := s.freeBuffers.drop need, compositor := c,
                          pages := replaceFirst (·.id = p.id) { p with bands := bands } s.pages }
  /-- A band record is removed and its buffers freed. -/
  | dropBand (p : Page) (bands : List BandRecord) (free : List Nat) (hp : s.page? p.id = some p)
      (hb : free.length + (bands.map (·.buffers.length)).sum = s.freeBuffers.length + p.held) :
      Move lim s { s with freeBuffers := free, pages := replaceFirst (·.id = p.id) { p with bands := bands } s.pages }
  | port (cursor : Option Nat) (sending : Option Sending) (counters : HeadCounters) :
      Move lim s { s with cursor := cursor, sending := sending, headCounters := counters }
  | offered (slot : OfferSlot) (ho : s.offer = none) (hp : s.path.length < Config.pathMax) :
      Move lim s { s with offer := some slot }
  | slot (o : Option OfferSlot) (h : o.toList.length ≤ s.offer.toList.length) : Move lim s { s with offer := o }
  /-- A page passes from the offer slot to the path list. -/
  | enterPath (id : Nat) (h : s.offer.isSome = true) : Move lim s { s with offer := none, path := s.path ++ [id] }
  | path (l : List Nat) (h : l.length ≤ s.path.length) : Move lim s { s with path := l }
  | purge (l : List Nat) (h : l.length ≤ s.purge.length ∨ l.length ≤ Config.purgeMax) : Move lim s { s with purge := l }
  | postNotice (n : Notice) (hn : s.noticesHeld < Config.noticeEntries) (hl : s.returnQueue.length < Config.returnEntries) :
      Move lim s { s with returnQueue := s.returnQueue ++ [{ item := .notice n, flushed := false }] }
  | postReply (r : Reply) (hl : s.returnQueue.length < Config.returnEntries) :
      Move lim s { s with returnQueue := s.returnQueue ++ [{ item := .reply r, flushed := false }] }
  | flush : Move lim s { s with returnQueue := s.returnQueue.map fun h => { h with flushed := true } }
  | release (h : Held) (rest : List Held) (hp : s.pickReleasable [] s.returnQueue = some (h, rest)) :
      Move lim s { s with returnQueue := rest }
  | gate (cls : NoticeClass) (g : Gate) (h : g.interval = s.gates[classIndex cls].interval ∨
        (cls ≠ .reply ∧ g.interval ≤ Config.intervalMax)) :
      Move lim s { s with gates := s.gates.set (classIndex cls) g }
  | returnChannel (t : Option Transfer) : Move lim s { s with returnChannel := t }
  | emptyTables : Move lim s (emptyTables s)
  | masterReset : Move lim s (masterReset s)

/-- A run of moves. -/
abbrev Moves (lim : Nat) := Relation.ReflTransGen (Move lim)

variable {lim : Nat}

theorem Moves.refl (s : State) : Moves lim s s := Relation.ReflTransGen.refl

theorem Move.moves {s t : State} (h : Move lim s t) : Moves lim s t := Relation.ReflTransGen.single h

theorem foldl_moves {α : Type} (f : State → α → State) (h : ∀ s a, Moves lim s (f s a)) (l : List α) (s : State) :
    Moves lim s (l.foldl f s) := by
  induction l generalizing s with
  | nil => exact Moves.refl _
  | cons a rest ih => exact (h s a).trans (ih _)

/-- What every move keeps, every run of moves keeps. -/
theorem Moves.keeps {P : State → Prop} (h : ∀ s t, Move lim s t → P s → P t) {s t : State} (m : Moves lim s t) (hs : P s) : P t := by
  induction m with
  | refl => exact hs
  | tail _ m ih => exact h _ _ m ih

/-! ## Outputs, channels and the return queue -/

theorem book_moves (s : State) (order : List Nat) (now : Nat) (wake : Bool) (out : List Output) (inReset : Bool) :
    Moves lim s { s with order := order, now := now, wake := wake, out := out, inReset := inReset } :=
  (Move.book s.pending order now wake out inReset fun _ h => h).moves

theorem emit_moves (o : Output) (s : State) : Moves lim s (emit o s) := book_moves s _ _ _ _ _

theorem wakeUp_moves (s : State) : Moves lim s (wakeUp s) := book_moves s _ _ _ _ _

theorem advanceTo_moves (t : Nat) (s : State) : Moves lim s (advanceTo t s) := book_moves s _ _ _ _ _

theorem sendReady_moves (mark : Bool) (s : State) : Moves lim s (sendReady mark s) := emit_moves _ s

theorem modChan_moves (ch : Chan) (f : Channel → Channel) (s : State) (h : ChanMoves lim s.chans[ch] (f s.chans[ch])) :
    Moves lim s (modChan ch f s) := (Move.chan ch _ h).moves

theorem modChan_move (ch : Chan) (f : Channel → Channel) (s : State) (h : ChanMove lim s.chans[ch] (f s.chans[ch])) :
    Moves lim s (modChan ch f s) := modChan_moves ch f s (.single h)

theorem evalReady_moves (ch : Chan) (s : State) : Moves lim s (evalReady ch s) := by
  obtain ⟨-, h⟩ | ⟨-, h⟩ := evalReady_cases ch s
  · rw [h]
  · rw [h]; exact (modChan_move ch _ s (.ready _)).trans (sendReady_moves _ _)

theorem dropFront_moves (ch : Chan) (len : Nat) (s : State) : Moves lim s (dropFront ch len s) :=
  (modChan_move ch _ s (.drop len)).trans (evalReady_moves _ _)

theorem unbind_moves (ch : Chan) (s : State) : Moves lim s (setBinding ch .unbound s) := modChan_move ch _ s .unbind

theorem setBinding_moves (ch : Chan) (b : Binding) (s : State) (h : s.chans[ch].binding ≠ .unbound ∨ s.chans[ch].buffer ≠ []) :
    Moves lim s (setBinding ch b s) := modChan_move ch _ s (.bind b h)

theorem releaseRule_moves (s : State) : Moves lim s (releaseRule s) := by
  obtain h | ⟨h, rest, -, hp, e⟩ := releaseRule_cases s
  · rw [h]
  · rw [e]
    let s1 : State := { s with returnQueue := rest }
    let g : Gate := { s.gates[classIndex h.cls] with last := some s.now, overrun := false }
    let s2 : State := { s1 with gates := s.gates.set (classIndex h.cls) g }
    let t : Transfer := { item := h.item, mark := s.gates[classIndex h.cls].overrun }
    have h1 : Moves lim s s1 := (Move.release h rest hp).moves
    have h2 : Moves lim s1 s2 := (Move.gate (s := s1) h.cls g (.inl rfl)).moves
    have h3 : Moves lim s2 { s2 with returnChannel := some t } := (Move.returnChannel _).moves
    exact ((h1.trans h2).trans h3).trans
      (book_moves { s2 with returnChannel := some t } s.order s.now true (s.out ++ [.returnBegin t]) s.inReset)

theorem setOverrun_moves (cls : NoticeClass) (s : State) : Moves lim s (setOverrun cls s) :=
  (Move.gate (s := s) cls { s.gates[classIndex cls] with overrun := true } (.inl rfl)).moves

theorem post_moves (n : Notice) (s : State) : Moves lim s (post n s) := by
  obtain ⟨hn, hl, e⟩ | ⟨-, e⟩ := post_cases n s
  · rw [e]; exact (Move.postNotice n hn hl).moves.trans (releaseRule_moves _)
  · rw [e]; exact (setOverrun_moves _ _).trans (releaseRule_moves _)

theorem notify_moves (code : NoticeCode) (tag subject : Nat) (detail : List Item) (s : State) :
    Moves lim s (notify code tag subject detail s) := post_moves _ s

theorem storeReply_moves (r : Reply) (s : State) : Moves lim s (storeReply r s) := by
  obtain ⟨hl, e⟩ | ⟨-, e⟩ := storeReply_cases r s
  · rw [e]; exact (Move.postReply r hl).moves.trans (releaseRule_moves _)
  · rw [e]; exact (setOverrun_moves _ _).trans (releaseRule_moves _)

theorem judgeStore_moves (tag : Nat) (s : State) : Moves lim s (judgeStore tag s) := by
  obtain e | ⟨-, -, e⟩ | ⟨-, -, e⟩ := judgeStore_cases tag s
  · rw [e]
  · rw [e]; exact (Move.storeState true true).moves.trans (notify_moves _ _ _ _ _)
  · rw [e]; exact (Move.storeState false s.lowSeen).moves.trans (notify_moves _ _ _ _ _)

theorem choose_moves {α : Type} (l : List α) (s : State) {a : α} {t : State} (h : choose l s = some (a, t)) : Moves lim s t := by
  unfold choose at h
  split at h
  · cases h
  · cases h; exact Moves.refl _
  · cases h; exact book_moves s _ _ _ _ _

/-! ## The waiting list -/

theorem unwait_moves (ch : Chan) (s : State) : Moves lim s (unwait ch s) := (Move.unwait ch).moves

theorem deferRecord_moves (ch : Chan) (kind : Resource) (s : State) : Moves lim s (deferRecord ch kind s) := by
  obtain ⟨-, e⟩ | ⟨h, e⟩ := deferRecord_cases ch kind s
  · rw [e]
    refine (Move.rekind _ ?_).moves
    rw [List.map_map]
    refine List.map_congr_left fun w _ => ?_
    simp only [Function.comp]
    split <;> rfl
  · rw [e]
    exact (Move.stall ch kind h).moves.trans (modChan_move ch _ _ .stalls)

end Sys2Proof.Machine
end

