-- ==== Sys2Proof/Laws/MovesTables.lean ====
section
/-! SUPPORT. The moves that the job table, the directory, portrait intake, the template table and the font table make. -/

namespace Sys2Proof.Machine

/-- What a taken record does is a run of moves. -/
def Verdict.Does (v : Verdict) (lim : Nat) (s : State) : Prop := ∀ t, v = .taken t → Moves lim s t

variable {lim : Nat}

theorem Verdict.does_taken {s t : State} (h : Moves lim s t) : (Verdict.taken t).Does lim s := by rintro _ ⟨⟩; exact h

theorem Verdict.does_refused (r : Reason) (x : List Item) (s : State) : (Verdict.refused r x).Does lim s := by rintro _ ⟨⟩

theorem Verdict.does_deferred (k : Resource) (s : State) : (Verdict.deferred k).Does lim s := by rintro _ ⟨⟩

/-! ## Entries and their blocks -/

theorem entry?_key {s : State} {key : Nat} {e : Entry} (h : s.entry? key = some e) : e.key = key := by
  simpa using List.find?_some h

theorem entry?_self {s : State} {key : Nat} {e : Entry} (h : s.entry? key = some e) : s.entry? e.key = some e := by
  rw [entry?_key h]; exact h

theorem entryStep_refl (e : Entry) : EntryStep e e :=
  ⟨rfl, rfl, .inl rfl, fun v hv => .inr ⟨v, hv, rfl⟩⟩

theorem setEntry_moves {s : State} {e e' : Entry} (he : s.entry? e.key = some e) (h : EntryStep e e') (hb : e'.held = e.held) :
    Moves lim s (setEntry e' s) := (Move.entry e e' s.freeBlocks he h (by rw [hb])).moves

theorem freeEntry_moves {s : State} {e e' : Entry} (runs : List Run) (he : s.entry? e.key = some e) (h : EntryStep e e')
    (hb : runCount runs + e'.held = e.held) : Moves lim s (returnBlocks runs (setEntry e' s)) := by
  have m := (Move.entry (lim := lim) e e' (joinRuns s.freeBlocks runs) he h (by rw [runCount_joinRuns]; omega)).moves
  exact m.trans (book_moves _ _ _ true _ _)

theorem held_eq (e : Entry) : e.held = (e.incoming.map fun v => runCount v.blocks).getD 0 +
    ((e.current.map fun v => runCount v.blocks).getD 0 + (e.retiring.map fun v => runCount v.blocks).getD 0) := by
  obtain ⟨_, _, _, _, _, _, i, c, r⟩ := e
  cases i <;> cases c <;> cases r <;> simp [Entry.held, Entry.versionList]

theorem mem_versionList (e : Entry) (v : Version) :
    v ∈ e.versionList ↔ e.incoming = some v ∨ e.current = some v ∨ e.retiring = some v := by
  simp [Entry.versionList, eq_comm]

theorem reportReady_moves (key : Nat) (v : Version) (r : Option (Nat × Bool)) (s : State) :
    Moves lim s (reportReady key v r s) := by
  unfold reportReady
  split
  · exact Moves.refl _
  · split
    · exact notify_moves _ _ _ _ _
    · exact (notify_moves _ _ _ _ _).trans (notify_moves _ _ _ _ _)

theorem takeRole_moves {s : State} {e : Entry} {v u : Version} (he : s.entry? e.key = some e) (hi : e.incoming = some u)
    (hb : u.blocks = v.blocks) (hg : v.GainLegal ∨ v.state = u.state) : Moves lim s (takeRole e v s) := by
  have hv : v.GainLegal ∨ ∃ w ∈ e.versionList, v.state = w.state :=
    hg.imp_right fun h => ⟨u, (mem_versionList e u).2 (.inl hi), h⟩
  have old : ∀ w, e.incoming = some w ∨ e.current = some w ∨ e.retiring = some w →
      w.GainLegal ∨ ∃ x ∈ e.versionList, w.state = x.state := fun w h => .inr ⟨w, (mem_versionList e w).2 h, rfl⟩
  unfold takeRole roleChange
  split
  · rename_i e' heq
    split at heq
    · cases heq
    · split at heq
      · cases heq
      · split at heq
        · cases heq
        · cases heq
          refine setEntry_moves he ⟨rfl, rfl, .inl rfl, fun w hw => ?_⟩ (by simp [held_eq, hi, hb])
          rw [mem_versionList] at hw
          simp only [Option.some.injEq] at hw
          obtain rfl | hw := hw
          · exact hv
          · exact old w (.inr hw)
  · rename_i e' freed rep heq
    refine Relation.ReflTransGen.trans (freeEntry_moves freed he ?_ ?_) (reportReady_moves _ _ _ _)
    · split at heq
      · cases heq
        refine ⟨rfl, rfl, .inl rfl, fun w hw => ?_⟩
        rw [mem_versionList] at hw
        simp only [reduceCtorEq, Option.some.injEq, false_or] at hw
        obtain rfl | hw := hw
        · exact hv
        · exact old w (.inr (.inr hw))
      · split at heq
        · cases heq
          refine ⟨rfl, rfl, .inl rfl, fun w hw => ?_⟩
          rw [mem_versionList] at hw
          simp only [reduceCtorEq, Option.some.injEq, false_or] at hw
          obtain rfl | hw := hw
          · exact hv
          · exact old w (.inr (.inr hw))
        · rename_i c hc _
          split at heq
          · cases heq
            refine ⟨rfl, rfl, .inl rfl, fun w hw => ?_⟩
            rw [mem_versionList] at hw
            simp only [reduceCtorEq, Option.some.injEq, false_or] at hw
            obtain rfl | rfl := hw
            · exact hv
            · exact old _ (.inr (.inl hc))
          · cases heq
    · split at heq
      · rename_i hc
        cases heq
        simp [held_eq, hi, hb, hc, runCount]
      · rename_i c hc
        split at heq
        · cases heq
          simp [held_eq, hi, hb, hc]; omega
        · split at heq
          · rename_i hr
            cases heq
            simp [held_eq, hi, hb, hc, hr, runCount]
          · cases heq

theorem promote_moves (key : Nat) (s : State) : Moves lim s (promote key s) := by
  unfold promote
  split
  · exact Moves.refl _
  · rename_i e he
    split
    · exact Moves.refl _
    · rename_i v hv
      have hi : e.incoming = some v := by
        unfold Entry.awaiting at hv
        split at hv
        · rename_i u hu
          split at hv
          · cases hv
          · cases hv; exact hu
        · cases hv
      exact takeRole_moves (entry?_self he) hi rfl (.inr rfl)

theorem pinVersion_moves (key : Nat) (s : State) : Moves lim s (pinVersion key s) := by
  unfold pinVersion
  split
  · exact Moves.refl _
  · rename_i e he
    split
    · exact Moves.refl _
    · rename_i c hc
      refine setEntry_moves (entry?_self he) ⟨rfl, rfl, .inl rfl, fun w hw => ?_⟩ (by simp [held_eq, hc])
      rw [mem_versionList] at hw
      simp only [Option.some.injEq] at hw
      obtain hw | rfl | hw := hw
      · exact .inr ⟨w, (mem_versionList e w).2 (.inl hw), rfl⟩
      · exact .inr ⟨c, (mem_versionList e c).2 (.inr (.inl hc)), rfl⟩
      · exact .inr ⟨w, (mem_versionList e w).2 (.inr (.inr hw)), rfl⟩

theorem unpinVersion_moves (tag key number : Nat) (s : State) : Moves lim s (unpinVersion tag key number s) := by
  unfold unpinVersion
  split
  · exact Moves.refl _
  · rename_i e he
    have he := entry?_self he
    split
    · rename_i r hr
      have hr : e.retiring = some r := (Option.filter_eq_some_iff.1 hr).1
      split
      · have m : Moves lim s (returnBlocks r.blocks (setEntry { e with retiring := none } s)) := by
          refine freeEntry_moves r.blocks he ⟨rfl, rfl, .inl rfl, fun w hw => ?_⟩ (by simp [held_eq, hr]; omega)
          rw [mem_versionList] at hw
          simp only [reduceCtorEq, or_false] at hw
          exact .inr ⟨w, (mem_versionList e w).2 (hw.imp_right .inl), rfl⟩
        exact (m.trans (notify_moves _ _ _ _ _)).trans (promote_moves _ _)
      · refine setEntry_moves he ⟨rfl, rfl, .inl rfl, fun w hw => ?_⟩ (by simp [held_eq, hr])
        rw [mem_versionList] at hw
        simp only [Option.some.injEq] at hw
        obtain hw | hw | rfl := hw
        · exact .inr ⟨w, (mem_versionList e w).2 (.inl hw), rfl⟩
        · exact .inr ⟨w, (mem_versionList e w).2 (.inr (.inl hw)), rfl⟩
        · exact .inr ⟨r, (mem_versionList e r).2 (.inr (.inr hr)), rfl⟩
    · split
      · rename_i c hc
        have hc : e.current = some c := (Option.filter_eq_some_iff.1 hc).1
        have m : Moves lim s (setEntry { e with current := some { c with pins := c.pins - 1 } } s) := by
          refine setEntry_moves he ⟨rfl, rfl, .inl rfl, fun w hw => ?_⟩ (by simp [held_eq, hc])
          rw [mem_versionList] at hw
          simp only [Option.some.injEq] at hw
          obtain hw | rfl | hw := hw
          · exact .inr ⟨w, (mem_versionList e w).2 (.inl hw), rfl⟩
          · exact .inr ⟨c, (mem_versionList e c).2 (.inr (.inl hc)), rfl⟩
          · exact .inr ⟨w, (mem_versionList e w).2 (.inr (.inr hw)), rfl⟩
        dsimp only
        split
        · exact m.trans (promote_moves _ _)
        · exact m
      · exact Moves.refl _

theorem failPortrait_moves (key : Nat) (reason : FailReason) (tag : Nat) (extra : List Item) (s : State) :
    Moves lim s (failPortrait key reason tag extra s) := by
  unfold failPortrait
  split
  · exact Moves.refl _
  · rename_i e he
    split
    · exact Moves.refl _
    · rename_i v hv
      have hi : e.incoming = some v := (Option.filter_eq_some_iff.1 hv).1
      have m : Moves lim s (returnBlocks v.blocks (setEntry { e with incoming := none } s)) := by
        refine freeEntry_moves v.blocks (entry?_self he) ⟨rfl, rfl, .inl rfl, fun w hw => ?_⟩ (by simp [held_eq, hi])
        rw [mem_versionList] at hw
        simp only [reduceCtorEq, false_or] at hw
        exact .inr ⟨w, (mem_versionList e w).2 (.inr hw), rfl⟩
      exact m.trans (notify_moves _ _ _ _ _)

@[simp] theorem failPortrait_chans (key : Nat) (reason : FailReason) (tag : Nat) (extra : List Item) (s : State) :
    (failPortrait key reason tag extra s).chans = s.chans := by
  unfold failPortrait
  split
  · rfl
  · split <;> simp

theorem abandonOpen_moves (ch : Chan) (tag : Nat) (after : Nat → Binding) (s : State) :
    Moves lim s (abandonOpen ch tag after s) := by
  unfold abandonOpen
  split
  · rename_i key _ hb
    exact (failPortrait_moves _ _ _ _ _).trans (setBinding_moves _ _ _ (.inl (by
      simp only [failPortrait_chans]
      exact hb.trans_ne nofun)))
  · exact Moves.refl _

theorem failOpen_moves (ch : Chan) (key tag found : Nat) (after : Binding) (s : State)
    (h : s.chans[ch].binding ≠ .unbound) : Moves lim s (failOpen ch key tag found after s) :=
  (failPortrait_moves _ _ _ _ _).trans (setBinding_moves _ _ _ (.inl (by simpa using h)))

/-! ## Jobs -/

theorem job?_id {s : State} {id : Nat} {j : Job} (h : s.job? id = some j) : j.id = id := by
  simpa using List.find?_some h

theorem job?_self {s : State} {id : Nat} {j : Job} (h : s.job? id = some j) : s.job? j.id = some j := by
  rw [job?_id h]; exact h

theorem setJob_moves {s : State} {j j' : Job} (hj : s.job? j.id = some j)
    (h : j'.id = j.id ∧ j'.base = j.base ∧ j'.limit = j.limit ∧ j'.target = j.target) : Moves lim s (setJob j' s) :=
  (Move.job j j' hj h).moves

theorem foldl_returnBlocks (blocks : List (List Run)) (s : State) :
    ∃ free wake, blocks.foldl (fun s runs => returnBlocks runs s) s = { s with freeBlocks := free, wake := wake } ∧
      runCount free = runCount s.freeBlocks + (blocks.map runCount).sum := by
  induction blocks generalizing s with
  | nil => exact ⟨s.freeBlocks, s.wake, rfl, by simp⟩
  | cons b rest ih =>
    obtain ⟨f, w, h1, h2⟩ := ih (returnBlocks b s)
    refine ⟨f, w, h1, ?_⟩
    rw [h2, List.map_cons, List.sum_cons, returnBlocks, wakeUp, runCount_joinRuns]
    omega

theorem blocks_count (e : Entry) : (e.blocks.map runCount).sum = e.held := by
  obtain ⟨_, _, _, _, _, _, i, c, r⟩ := e
  cases i <;> cases c <;> cases r <;> simp [Entry.blocks, Entry.held, Entry.versionList]

theorem flatMap_blocks_count (l : List Entry) : ((l.flatMap Entry.blocks).map runCount).sum = (l.map Entry.held).sum := by
  induction l with
  | nil => rfl
  | cons e rest ih => simp [List.flatMap_cons, List.map_append, List.sum_append, blocks_count, ih]

theorem completeJob_moves (j : Job) (s : State) : Moves lim s (completeJob j s) := by
  unfold completeJob
  split
  · exact Moves.refl _
  · split
    · obtain ⟨free, wake, h1, h2⟩ := foldl_returnBlocks ((s.entries.filter fun e => j.holds e.key).flatMap Entry.blocks)
        { s with entries := s.entries.filter fun e => !j.holds e.key, jobs := removeFirst (·.id = j.id) s.jobs }
      dsimp only
      rw [h1]
      rw [flatMap_blocks_count] at h2
      have m := (Move.closeJob (lim := lim) (s := s) j free h2).moves
      exact (m.trans (book_moves _ _ _ wake _ _)).trans ((wakeUp_moves _).trans (notify_moves _ _ _ _ _))
    · exact Moves.refl _

theorem dropLivePage_moves (id : Nat) (s : State) : Moves lim s (dropLivePage id s) := by
  unfold dropLivePage
  split
  · exact Moves.refl _
  · rename_i j hj
    have m : Moves lim s (setJob { j with livePages := j.livePages - 1 } s) :=
      setJob_moves (job?_self hj) ⟨rfl, rfl, rfl, rfl⟩
    exact m.trans (completeJob_moves _ _)

theorem clamp_bounds {lo hi : Nat} (n : Nat) (h : lo ≤ hi) : lo ≤ clamp lo hi n ∧ clamp lo hi n ≤ hi := by
  unfold clamp; omega

theorem storedTarget_legal (t : Nat) : storedTarget t = 0 ∨
    (Config.targetMin ≤ storedTarget t ∧ storedTarget t ≤ Config.targetMax) := by
  unfold storedTarget
  split
  · exact .inl rfl
  · exact .inr (clamp_bounds t (by decide))

theorem judgeJobOpen_does (ch : Chan) (b : List Byte) (s : State) : (judgeJobOpen ch b s).Does lim s := by
  unfold judgeJobOpen
  dsimp only
  split
  · exact Verdict.does_refused _ _ _
  · rename_i h1
    split
    · exact Verdict.does_refused _ _ _
    · rename_i h2
      split
      · exact Verdict.does_refused _ _ _
      · rename_i h3
        split
        · exact Verdict.does_deferred _ _
        · rename_i h4
          simp only [Bool.or_eq_true, decide_eq_true_eq, not_or, Nat.not_le] at h1 h4
          refine Verdict.does_taken (Move.openJob _ h4.1 ?_ ?_ ?_).moves
          · simpa using h2
          · simpa using h3
          · exact ⟨Nat.pos_of_ne_zero h1.1.1, Nat.pos_of_ne_zero h1.1.2, Nat.le_of_not_lt h1.2, storedTarget_legal _⟩

theorem abandonForJob_moves (id tag : Nat) (s : State) (ch : Chan) : Moves lim s (abandonForJob id tag s ch) := by
  unfold abandonForJob
  split
  · split
    · split
      · exact abandonOpen_moves _ _ _ _
      · exact Moves.refl _
    · exact Moves.refl _
  · exact Moves.refl _

theorem judgeJobClose_does (b : List Byte) (s : State) : (judgeJobClose b s).Does lim s := by
  unfold judgeJobClose
  dsimp only
  split
  · exact Verdict.does_refused _ _ _
  · rename_i j hj
    split
    · have m : Moves lim s (setJob { j with state := .closing (recTag b) } s) :=
        setJob_moves (job?_self hj) ⟨rfl, rfl, rfl, rfl⟩
      exact Verdict.does_taken (((m.trans (foldl_moves _ (abandonForJob_moves _ _) _ _)).trans
        (completeJob_moves _ _)).trans (wakeUp_moves _))
    · exact Verdict.does_refused _ _ _

/-! ## ROSTER -/

theorem withEntry_moves (key jobId : Nat) (s : State) (h : s.entry? key = none → s.entries.length < Config.directorySize) :
    Moves lim s (withEntry key jobId s) := by
  unfold withEntry
  split
  · exact Moves.refl _
  · rename_i hn
    exact (Move.newEntry key jobId hn (h hn)).moves

theorem takeRoster_moves (key tag publication : Nat) (name : List Byte) (s : State) :
    Moves lim s (takeRoster key tag publication name s) := by
  unfold takeRoster
  split
  · exact Moves.refl _
  · rename_i e he
    dsimp only
    have m : Moves lim s (setEntry { e with
        name := nameOf (cleanName Config.nameLength name).1, withholdPhoto := bit publication 0,
        withholdName := bit publication 1, nameAltered := (cleanName Config.nameLength name).2 } s) :=
      setEntry_moves (entry?_self he) ⟨rfl, rfl, .inr ⟨name, rfl⟩, fun v hv => .inr ⟨v, hv, rfl⟩⟩ rfl
    split
    · exact (m.trans (notify_moves _ _ _ _ _)).trans (notify_moves _ _ _ _ _)
    · exact m.trans (notify_moves _ _ _ _ _)

theorem not_entryShort {s : State} {ch : Chan} (h : s.entryShort ch = false) : s.entries.length < Config.directorySize := by
  simp only [State.entryShort, Bool.or_eq_false_iff, decide_eq_false_iff_not, Nat.not_le] at h
  exact h.1

theorem judgeRoster_does (ch : Chan) (b : List Byte) (s : State) : (judgeRoster ch b s).Does lim s := by
  unfold judgeRoster
  dsimp only
  split
  · exact Verdict.does_refused _ _ _
  · split
    · exact Verdict.does_refused _ _ _
    · split
      · exact Verdict.does_refused _ _ _
      · split
        · exact Verdict.does_deferred _ _
        · rename_i h
          refine Verdict.does_taken ((withEntry_moves _ _ _ fun hn => ?_).trans (takeRoster_moves _ _ _ _ _))
          rw [hn] at h
          exact not_entryShort (by simpa using h)

/-! ## Portrait intake -/

theorem entry?_withEntry (key jobId : Nat) (s : State) :
    (withEntry key jobId s).entry? key = some ((s.entry? key).getD (newEntry key jobId)) := by
  unfold withEntry
  split
  · rename_i e he; simp [he]
  · rename_i hn
    rw [hn]
    simp only [State.entry?] at hn ⊢
    rw [List.find?_append, hn]
    simp [newEntry]

theorem withEntry_freeBlocks (key jobId : Nat) (s : State) : (withEntry key jobId s).freeBlocks = s.freeBlocks := by
  unfold withEntry; split <;> rfl

theorem withEntry_chans (key jobId : Nat) (s : State) : (withEntry key jobId s).chans = s.chans := by
  unfold withEntry; split <;> rfl

theorem admitHead_moves (ch : Chan) (b : List Byte) (j : Job) (s : State) (hl : s.chans[ch].buffer ≠ [])
    (hn : s.entry? (field b 8 4) = none → s.entries.length < Config.directorySize)
    (hi : ∀ e, s.entry? (field b 8 4) = some e → e.incoming = none) : Moves lim s (admitHead ch b j s) := by
  unfold admitHead
  dsimp only
  have hw := entry?_withEntry (field b 8 4) j.id s
  have hc := withEntry_chans (field b 8 4) j.id s
  have m := withEntry_moves (lim := lim) (field b 8 4) j.id s hn
  generalize withEntry (field b 8 4) j.id s = u at hw hc m
  rw [hw]
  generalize he : (s.entry? (field b 8 4)).getD (newEntry (field b 8 4) j.id) = e at hw
  have hin : e.incoming = none := by
    cases hs : s.entry? (field b 8 4) with
    | none => rw [hs] at he; subst he; rfl
    | some x => rw [hs] at he; subst he; exact hi x hs
  dsimp only
  have hb := runCount_takeBlocks (reservation (field b 14 2) (field b 16 2)) u.freeBlocks
  have m2 := (Move.entry (lim := lim) e { e with incoming := some (admittedVersion b
      (takeBlocks (reservation (field b 14 2) (field b 16 2)) u.freeBlocks).1) }
      (takeBlocks (reservation (field b 14 2) (field b 16 2)) u.freeBlocks).2 (entry?_self hw)
      ⟨rfl, rfl, .inl rfl, fun v hv => by
        rw [mem_versionList] at hv
        simp only [Option.some.injEq] at hv
        obtain rfl | hv := hv
        · left; rintro _ _ _ ⟨⟩
        · exact .inr ⟨v, (mem_versionList e v).2 (.inr hv), rfl⟩⟩
      (by simp only [held_eq, hin, admittedVersion, Option.map_some, Option.getD_some, Option.map_none, Option.getD_none]; omega)).moves
  exact (m.trans m2).trans (setBinding_moves _ _ _ (.inr (by simpa [hc] using hl)))

theorem blocksStep_does (ch : Chan) (b : List Byte) (j : Job) (s : State) (hl : s.chans[ch].buffer ≠ [])
    (hn : s.entry? (field b 8 4) = none → s.entries.length < Config.directorySize)
    (hi : ∀ e, s.entry? (field b 8 4) = some e → e.incoming = none) : (blocksStep ch b j s).Does lim s := by
  unfold blocksStep
  split
  · exact Verdict.does_deferred _ _
  · exact Verdict.does_taken (admitHead_moves ch b j s hl hn hi)

theorem roleStep_cases (ch : Chan) (key version : Nat) (e : Entry) (s : State) :
    (∃ v, roleStep ch key version e s = some v ∧ v.Does lim s) ∨ (roleStep ch key version e s = none ∧ e.incoming = none) := by
  unfold roleStep
  split
  · exact .inl ⟨_, rfl, Verdict.does_deferred _ _⟩
  · rename_i h
    have hin : e.incoming = none := by
      simp only [Bool.or_eq_true, not_or, Bool.not_eq_true, Option.isSome_eq_false_iff, Option.isNone_iff_eq_none] at h
      exact h.1
    split
    · exact .inr ⟨rfl, hin⟩
    · split
      · exact .inl ⟨_, rfl, Verdict.does_refused _ _ _⟩
      · split
        · exact .inl ⟨_, rfl, Verdict.does_deferred _ _⟩
        · exact .inr ⟨rfl, hin⟩

theorem judgeHead_does (ch : Chan) (b : List Byte) (s : State) (hl : s.chans[ch].buffer ≠ []) : (judgeHead ch b s).Does lim s := by
  unfold judgeHead
  dsimp only
  split
  · exact Verdict.does_refused _ _ _
  · split
    · exact Verdict.does_refused _ _ _
    · split
      · rename_i hn
        split
        · exact Verdict.does_deferred _ _
        · rename_i h
          exact blocksStep_does ch b _ s hl (fun _ => not_entryShort (by simpa using h)) (by simp [hn])
      · rename_i e he
        obtain ⟨v, h1, h2⟩ | ⟨h1, h2⟩ := roleStep_cases ch (field b 8 4) (field b 12 2) e s
        · rw [h1]; exact h2
        · rw [h1]
          exact blocksStep_does ch b _ s hl (by simp [he]) (by rintro _ h; rw [he] at h; cases h; exact h2)

theorem judgeStrip_does (ch : Chan) (b : List Byte) (s : State) : (judgeStrip ch b s).Does lim s := by
  unfold judgeStrip
  split
  · rename_i key expected hb
    split
    · exact Verdict.does_refused _ _ _
    · rename_i e he
      split
      · exact Verdict.does_refused _ _ _
      · rename_i v hv
        split
        · exact Verdict.does_refused _ _ _
        · rename_i win hw
          split
          · refine Verdict.does_taken ?_
            unfold acceptStrip
            dsimp only
            have m1 := (Move.store (lim := lim) (s := s) (locate (v.lines * v.width * 3) (field b 14 2 * v.width * 3) (blockAreas v.blocks))
              (b.drop 16)).moves
            refine m1.trans (Relation.ReflTransGen.trans (setEntry_moves (e := e) ?_ ?_ ?_)
              (setBinding_moves _ _ _ (.inl (hb.trans_ne nofun))))
            · exact entry?_self he
            · refine ⟨rfl, rfl, .inl rfl, fun w hw' => ?_⟩
              rw [mem_versionList] at hw'
              simp only [Option.some.injEq] at hw'
              obtain rfl | hw' := hw'
              · exact .inr ⟨v, (mem_versionList e v).2 (.inl hv), rfl⟩
              · exact .inr ⟨w, (mem_versionList e w).2 (.inr hw'), rfl⟩
            · simp [held_eq, hv]
          · exact Verdict.does_taken (failOpen_moves _ _ _ _ _ _ (hb.trans_ne nofun))
  · exact Verdict.does_refused _ _ _

theorem measuredGain_legal (t m : Nat) : Config.gainMin ≤ measuredGain t m ∧ measuredGain t m ≤ Config.gainMax := by
  unfold measuredGain
  split
  · decide
  · exact clamp_bounds _ (by decide)

theorem gainAtEnd_legal (f : Option Nat) (t m : Nat) :
    Config.gainMin ≤ gainAtEnd f t m ∧ gainAtEnd f t m ≤ Config.gainMax := by
  cases f with
  | none => exact measuredGain_legal t m
  | some g => exact clamp_bounds g (by decide)

theorem judgeEnd_does (ch : Chan) (b : List Byte) (s : State) : (judgeEnd ch b s).Does lim s := by
  unfold judgeEnd
  split
  · split
    · exact Verdict.does_refused _ _ _
    · rename_i e he
      split
      · exact Verdict.does_refused _ _ _
      · rename_i v hv
        dsimp only
        split
        · refine Verdict.does_taken ((unbind_moves ch s).trans (takeRole_moves (u := v) ?_ ?_ rfl (.inl ?_)))
          · exact entry?_self he
          · exact (Option.filter_eq_some_iff.1 hv).1
          · rintro _ _ _ ⟨⟩; exact gainAtEnd_legal _ _ _
        · exact Verdict.does_taken ((unbind_moves ch s).trans (failPortrait_moves _ _ _ _ _))
  · exact Verdict.does_refused _ _ _

@[simp] theorem failOpen_buffer (ch : Chan) (key tag found : Nat) (after : Binding) (s : State) :
    (failOpen ch key tag found after s).chans[ch].buffer = s.chans[ch].buffer := by
  simp [failOpen, setBinding]

/-! ## Templates and fonts -/

theorem setTemplate_moves (i : Fin 12) (x : Option TemplateBuffer) (s : State)
    (h : ∀ t, x = some t → t.Legal ∨ ∃ u, s.templates[i] = some u ∧ t.width = u.width ∧ t.height = u.height ∧
      t.bandHeight = u.bandHeight) : Moves lim s (setTemplate i x s) := (Move.template i x h).moves

theorem unmapPrevious_moves (tag : Nat) (previous : Option (Fin 12)) (s : State) :
    Moves lim s (unmapPrevious tag previous s).1 := by
  unfold unmapPrevious
  split
  · exact Moves.refl _
  · split
    · exact Moves.refl _
    · rename_i t ht
      split
      · exact (setTemplate_moves _ _ _ (by simp)).trans (wakeUp_moves _)
      · exact setTemplate_moves _ _ _ (by rintro _ ⟨⟩; exact .inr ⟨t, ht, rfl, rfl, rfl⟩)

theorem settleTemplate_legal (b : List Byte) : (settleTemplate b).buffer.Legal where
  width := clamp_bounds _ (by decide)
  height := clamp_bounds _ (by decide)
  band := by
    show settledBandHeight _ = 16 ∨ _
    simp only [settleTemplate, settledBandHeight]
    split
    · rename_i h; simpa [or_assoc] using h
    · simp

theorem loadTemplate_moves (i : Fin 12) (x : SettledTemplate) (s : State) (h : x.buffer.Legal) :
    Moves lim s (loadTemplate i x s) := by
  unfold loadTemplate
  have m := unmapPrevious_moves (lim := lim) x.buffer.tag (s.mappedBuffer x.buffer.number) s
  dsimp only
  have m2 := (m.trans (setTemplate_moves i (some x.buffer) _ (by rintro _ ⟨⟩; exact .inl h))).trans
    (notify_moves .templateLoaded x.buffer.tag x.buffer.number
      [.two i, .two x.carried, .two x.kept, .two x.clipped, .two x.defaulted, .two x.droppedEmpty, .two x.droppedUnpaired,
        .two x.buffer.bandCount, flagItem [x.buffer.sizeClamped, x.buffer.bandDefaulted],
        .two (unmapPrevious x.buffer.tag (s.mappedBuffer x.buffer.number) s).2] _)
  split
  · split
    · exact m2.trans (notify_moves _ _ _ _ _)
    · exact m2
  · exact m2

theorem judgeTemplate_does (ch : Chan) (b : List Byte) (s : State) : (judgeTemplate ch b s).Does lim s := by
  unfold judgeTemplate
  dsimp only
  split
  · exact Verdict.does_refused _ _ _
  · split
    · exact Verdict.does_refused _ _ _
    · split
      · exact Verdict.does_refused _ _ _
      · split
        · exact Verdict.does_refused _ _ _
        · split
          · exact Verdict.does_deferred _ _
          · split
            · exact Verdict.does_deferred _ _
            · exact Verdict.does_taken (loadTemplate_moves _ _ _ (settleTemplate_legal b))

theorem pinTemplate_moves (i : Fin 12) (s : State) : Moves lim s (pinTemplate i s) := by
  unfold pinTemplate
  split
  · exact Moves.refl _
  · rename_i t ht
    exact setTemplate_moves _ _ _ (by rintro _ ⟨⟩; exact .inr ⟨t, ht, rfl, rfl, rfl⟩)

theorem unpinTemplate_moves (i : Fin 12) (s : State) : Moves lim s (unpinTemplate i s) := by
  unfold unpinTemplate
  split
  · exact Moves.refl _
  · rename_i t ht
    have hk : ∀ n, Moves lim s (setTemplate i (some { t with pins := n }) s) := fun n =>
      setTemplate_moves _ _ _ (by rintro _ ⟨⟩; exact .inr ⟨t, ht, rfl, rfl, rfl⟩)
    split
    · exact hk _
    · split
      · exact ((setTemplate_moves i none s (by simp)).trans (wakeUp_moves _)).trans (notify_moves _ _ _ _ _)
      · exact hk _

theorem judgeFont_does (ch : Chan) (b : List Byte) (s : State) : (judgeFont ch b s).Does lim s := by
  unfold judgeFont
  dsimp only
  split
  · exact Verdict.does_refused _ _ _
  · split
    · exact Verdict.does_deferred _ _
    · refine Verdict.does_taken (Relation.ReflTransGen.trans (Move.font (fontIndex (field b 8 1)) _ (.inr ?_)).moves
        (notify_moves _ _ _ _ _))
      rintro m ⟨⟩
      exact ⟨clamp_bounds _ (by decide), (clamp_bounds _ (by decide)).2, clamp_bounds _ (by decide)⟩

theorem judgeGlyph_does (ch : Chan) (b : List Byte) (s : State) : (judgeGlyph ch b s).Does lim s := by
  unfold judgeGlyph
  dsimp only
  split
  · exact Verdict.does_refused _ _ _
  · split
    · exact Verdict.does_refused _ _ _
    · split
      · exact Verdict.does_refused _ _ _
      · split
        · exact Verdict.does_deferred _ _
        · split
          · exact Verdict.does_refused _ _ _
          · split
            · exact Verdict.does_refused _ _ _
            · refine Verdict.does_taken (Move.font (fontIndex (field b 8 1)) _ (.inl ?_)).moves
              rfl

end Sys2Proof.Machine
end

