-- ==== Sys2Proof/Laws/MovesPress.lean ====
section
/-! SUPPORT. The moves that the page queue, the compositor, the band queue and the head port make. -/

namespace Sys2Proof.Machine

variable {lim : Nat}

/-! ## Page records -/

theorem page?_id {s : State} {id : Nat} {p : Page} (h : s.page? id = some p) : p.id = id := by
  simpa using List.find?_some h

theorem page?_self {s : State} {id : Nat} {p : Page} (h : s.page? id = some p) : s.page? p.id = some p := by
  rw [page?_id h]; exact h

theorem page?_mem {s : State} {id : Nat} {p : Page} (h : s.page? id = some p) : p ∈ s.pages := List.mem_of_find?_eq_some h

theorem page?_congr {s t : State} (h : t.pages = s.pages) (id : Nat) : t.page? id = s.page? id := by
  unfold State.page?; rw [h]

theorem find?_replaceFirst {α : Type} (p : α → Bool) {x y : α} (hx : p x = true) (l : List α) (h : l.find? p = some y) :
    (replaceFirst p x l).find? p = some x := by
  induction l with
  | nil => cases h
  | cons a rest ih =>
    by_cases ha : p a = true
    · simp [replaceFirst, ha, hx]
    · rw [List.find?_cons_of_neg ha] at h
      simp [replaceFirst, ha, ih h]

theorem find?_replaceFirst_ne {α : Type} (p q : α → Bool) (x : α) (hx : q x = false) (hpq : ∀ a, p a = true → q a = false)
    (l : List α) : (replaceFirst p x l).find? q = l.find? q := by
  induction l with
  | nil => rfl
  | cons a rest ih =>
    by_cases ha : p a = true
    · simp [replaceFirst, ha, hx, hpq a ha]
    · simp only [replaceFirst, ha, Bool.false_eq_true, if_false, List.find?_cons, ih]

theorem setPage_page? {s : State} {p q : Page} (h : s.page? p.id = some q) : (setPage p s).page? p.id = some p :=
  find?_replaceFirst _ (by simp) _ h

theorem setPage_page?_ne {s : State} {p : Page} {id : Nat} (h : id ≠ p.id) : (setPage p s).page? id = s.page? id :=
  find?_replaceFirst_ne _ _ _ (by simpa using h.symm) (by
    intro a ha
    simp only [decide_eq_true_eq] at ha
    simp only [decide_eq_false_iff_not, ha]
    exact h.symm) _

theorem setPage_moves {s : State} {p p' : Page} (hp : p ∈ s.pages) (h : PageStep s p p') : Moves lim s (setPage p' s) :=
  (Move.page p p' hp h).moves

theorem modPage_moves {s : State} (id : Nat) (f : Page → Page) (h : ∀ p ∈ s.pages, PageStep s p (f p)) :
    Moves lim s (modPage id f s) := by
  unfold modPage
  split
  · rename_i p hp
    exact setPage_moves (page?_mem hp) (h p (page?_mem hp))
  · exact Moves.refl _

theorem fillGathering_moves (s : State) : Moves lim s (fillGathering s) := by
  unfold fillGathering
  split
  · exact Moves.refl _
  · rename_i hg
    split
    · rename_i p hp
      exact setPage_moves (List.mem_of_find?_eq_some hp) ⟨rfl, rfl, rfl, rfl, .inl rfl, fun _ => .inr hg⟩
    · exact Moves.refl _

/-! ## What leaves the pages alone -/

@[simp] theorem reportReady_pages (key : Nat) (v : Version) (r : Option (Nat × Bool)) (s : State) :
    (reportReady key v r s).pages = s.pages := by
  unfold reportReady
  split
  · rfl
  · dsimp only
    split <;> simp

@[simp] theorem takeRole_pages (e : Entry) (v : Version) (s : State) : (takeRole e v s).pages = s.pages := by
  unfold takeRole
  split <;> simp

@[simp] theorem promote_pages (key : Nat) (s : State) : (promote key s).pages = s.pages := by
  unfold promote
  split
  · rfl
  · split <;> simp

@[simp] theorem unpinVersion_pages (tag key number : Nat) (s : State) : (unpinVersion tag key number s).pages = s.pages := by
  unfold unpinVersion
  split
  · rfl
  · split
    · split <;> simp
    · split
      · dsimp only
        split <;> simp
      · rfl

@[simp] theorem pinVersion_pages (key : Nat) (s : State) : (pinVersion key s).pages = s.pages := by
  unfold pinVersion
  split
  · rfl
  · split <;> simp

@[simp] theorem unpinTemplate_pages (i : Fin 12) (s : State) : (unpinTemplate i s).pages = s.pages := by
  unfold unpinTemplate
  split
  · rfl
  · split
    · simp
    · split <;> simp [wakeUp]

@[simp] theorem pinTemplate_pages (i : Fin 12) (s : State) : (pinTemplate i s).pages = s.pages := by
  unfold pinTemplate
  split <;> simp

theorem foldl_pages {α : Type} (f : State → α → State) (h : ∀ s a, (f s a).pages = s.pages) (l : List α) (s : State) :
    (l.foldl f s).pages = s.pages := by
  induction l generalizing s with
  | nil => rfl
  | cons a rest ih => rw [List.foldl_cons, ih, h]

/-! ## Taking a PAGE -/

theorem job?_congr {s t : State} (h : t.jobs = s.jobs) (id : Nat) : t.job? id = s.job? id := by
  unfold State.job?; rw [h]

@[simp] theorem pinTemplate_jobs (i : Fin 12) (s : State) : (pinTemplate i s).jobs = s.jobs := by
  unfold pinTemplate
  split <;> rfl

theorem storedAttempts_bounds (n : Nat) : 1 ≤ storedAttempts n ∧ storedAttempts n ≤ Config.attemptsMax := by
  unfold storedAttempts
  split
  · decide
  · rename_i h
    simp only [Bool.or_eq_true, decide_eq_true_eq, not_or, Nat.not_lt] at h
    exact ⟨Nat.pos_of_ne_zero h.1, h.2⟩

theorem takePage_moves {b : List Byte} {j : Job} (i : Fin 12) (t : TemplateBuffer) {s : State} {id : Nat}
    (hs : s.pages.length < Config.pageSlots) (hid : s.page? (field b 8 2) = none) (h0 : field b 8 2 ≠ 0)
    (hj : s.job? id = some j) : Moves lim s (takePage b j i t s) := by
  unfold takePage
  dsimp only
  let p : Page :=
    { id := field b 8 2, jobId := j.id, tag := recTag b, buffer := i, maxAttempts := storedAttempts (field b 14 1)
      hold := field b 10 2, title := nameOf (cleanName Config.titleLength ((b.drop 20).take (field b 15 1))).1
      cells := pageCells t.cellSet (pageKeys b), state := .queued, permit := false
      timer := .notStarted, cast := none, attempt := 0, spoiled := false, firstCount := 0, bands := [], sendLog := [] }
  have m1 : Moves lim s { s with pages := s.pages ++ [p] } :=
    (Move.newPage p hs hid ⟨h0, (storedAttempts_bounds _).1, (storedAttempts_bounds _).2, rfl⟩ rfl ⟨_, rfl⟩ rfl).moves
  have m2 := m1.trans (pinTemplate_moves i { s with pages := s.pages ++ [p] })
  have m3 := m2.trans (setJob_moves (j := j) (j' := { j with livePages := j.livePages + 1 })
    (by rw [job?_congr (pinTemplate_jobs _ _)]; exact job?_self hj) ⟨rfl, rfl, rfl, rfl⟩)
  exact (m3.trans (notify_moves _ _ _ _ _)).trans (fillGathering_moves _)

theorem judgePage_does (ch : Chan) (b : List Byte) (s : State) : (judgePage ch b s).Does lim s := by
  unfold judgePage
  dsimp only
  split
  · exact Verdict.does_refused _ _ _
  · rename_i h1
    split
    · exact Verdict.does_refused _ _ _
    · rename_i h2
      split
      · exact Verdict.does_refused _ _ _
      · rename_i j hj
        split
        · exact Verdict.does_refused _ _ _
        · split
          · exact Verdict.does_refused _ _ _
          · split
            · exact Verdict.does_refused _ _ _
            · exact Verdict.does_refused _ _ _
            · exact Verdict.does_refused _ _ _
            · split
              · exact Verdict.does_deferred _ _
              · rename_i h4
                simp only [Bool.or_eq_true, decide_eq_true_eq, not_or, Nat.not_le] at h1 h4
                exact Verdict.does_taken (takePage_moves _ _ h4.1 (by simpa using h2) h1.1.1.1 hj)

/-! ## Composition start and terminal release -/

theorem compositionStart_moves {p : Page} {s : State} (hp : p ∈ s.pages) : Moves lim s (compositionStart p s) := by
  unfold compositionStart
  split
  · exact Moves.refl _
  · rename_i t ht
    dsimp only
    have m := foldl_moves (lim := lim) (fun s (k : Nat × Nat) => pinVersion k.1 s) (fun s k => pinVersion_moves k.1 s)
      ((capture s t p).cells.filterMap CastRecord.pinned) s
    have hq := foldl_pages (fun s (k : Nat × Nat) => pinVersion k.1 s) (fun s k => pinVersion_pages k.1 s)
      ((capture s t p).cells.filterMap CastRecord.pinned) s
    refine ((m.trans (setPage_moves (p := p) (by rw [hq]; exact hp) ?_)).trans (notify_moves _ _ _ _ _)).trans
      (fillGathering_moves _)
    exact ⟨rfl, rfl, rfl, rfl, .inl rfl, by rintro ⟨⟩⟩

theorem insertSorted_length {α : Type} (le : α → α → Bool) (x : α) (l : List α) :
    (insertSorted le x l).length = l.length + 1 := by
  induction l with
  | nil => rfl
  | cons a rest ih =>
    simp only [insertSorted]
    split <;> simp [ih]

theorem foldl_insert_length (le : Nat → Nat → Bool) (buffers free : List Nat) :
    (buffers.foldl (fun free n => insertSorted (fun a b => le a b) n free) free).length = free.length + buffers.length := by
  induction buffers generalizing free with
  | nil => rfl
  | cons n rest ih => rw [List.foldl_cons, ih, insertSorted_length, List.length_cons]; omega

theorem freeBandBuffers_length (buffers : List Nat) (s : State) :
    (freeBandBuffers buffers s).freeBuffers.length = s.freeBuffers.length + buffers.length :=
  foldl_insert_length (fun a b => decide (a ≤ b)) buffers s.freeBuffers

theorem held_flatMap (p : Page) : (p.bands.flatMap (·.buffers)).length = p.held := by
  rw [List.length_flatMap]; rfl

theorem removePage_moves {s : State} {p : Page} (hp : s.page? p.id = some p) : Moves lim s (removePage p s) :=
  (Move.removePage p hp _ _ (by
    rw [freeBandBuffers_length, held_flatMap])).moves

theorem releasePage_moves (tag id : Nat) (announce : Page → State → State) (s : State)
    (ha : ∀ p s, Moves lim s (announce p s)) (hq : ∀ p s, (announce p s).pages = s.pages) :
    Moves lim s (releasePage tag id announce s) := by
  unfold releasePage
  split
  · exact Moves.refl _
  · rename_i p hp
    have key : ∀ named : List (Nat × Nat), Moves lim s (fillGathering (wakeUp (dropLivePage p.jobId (removePage p
        (unpinTemplate p.buffer (named.foldl (fun s k => unpinVersion tag k.1 k.2 s) (announce p s))))))) := by
      intro named
      have m1 := (ha p s).trans (foldl_moves (fun s (k : Nat × Nat) => unpinVersion tag k.1 k.2 s)
        (fun s k => unpinVersion_moves tag k.1 k.2 s) named _)
      have m2 := m1.trans (unpinTemplate_moves p.buffer _)
      have hpg : (unpinTemplate p.buffer (named.foldl (fun s (k : Nat × Nat) => unpinVersion tag k.1 k.2 s)
          (announce p s))).pages = s.pages := by
        rw [unpinTemplate_pages, foldl_pages (fun s (k : Nat × Nat) => unpinVersion tag k.1 k.2 s)
          (fun s k => unpinVersion_pages tag k.1 k.2 s), hq]
      have m3 := m2.trans (removePage_moves (p := p) (by rw [page?_congr hpg]; exact page?_self hp))
      exact ((m3.trans (dropLivePage_moves p.jobId _)).trans (wakeUp_moves _)).trans (fillGathering_moves _)
    exact key _

theorem judgePageCancel_does (b : List Byte) (s : State) : (judgePageCancel b s).Does lim s := by
  unfold judgePageCancel
  dsimp only
  split
  · exact Verdict.does_refused _ _ _
  · split
    · exact Verdict.does_refused _ _ _
    · exact Verdict.does_taken (releasePage_moves _ _ _ _ (fun p s => notify_moves _ _ _ _ s) (fun p s => notify_pages _ _ _ _ s))

/-! ## Band records -/

theorem removeFirst_sum {α : Type} (p : α → Bool) (f : α → Nat) {l : List α} {x : α} (h : l.find? p = some x) :
    f x + ((removeFirst p l).map f).sum = (l.map f).sum := by
  induction l with
  | nil => cases h
  | cons a rest ih =>
    by_cases ha : p a = true
    · simp only [List.find?_cons_of_pos ha, Option.some.injEq] at h
      subst h
      simp [removeFirst, ha]
    · rw [List.find?_cons_of_neg ha] at h
      simp only [removeFirst, ha, Bool.false_eq_true, if_false, List.map_cons, List.sum_cons]
      have := ih h
      omega

theorem insertSorted_sum {α : Type} (le : α → α → Bool) (f : α → Nat) (x : α) (l : List α) :
    ((insertSorted le x l).map f).sum = f x + (l.map f).sum := by
  induction l with
  | nil => rfl
  | cons a rest ih =>
    simp only [insertSorted]
    split
    · rfl
    · simp only [List.map_cons, List.sum_cons, ih]; omega

theorem dropBand_moves (id b : Nat) (s : State) : Moves lim s (dropBand id b s) := by
  unfold dropBand
  split
  · exact Moves.refl _
  · rename_i p hp
    split
    · exact Moves.refl _
    · rename_i r hr
      refine (Move.dropBand p _ _ (page?_self hp) ?_).moves
      rw [freeBandBuffers_length]
      have := removeFirst_sum (fun x : BandRecord => decide (x.index = b)) (·.buffers.length) hr
      simp only [Page.held]
      omega

theorem freeBandBuffers_page? (l : List Nat) (s : State) (id : Nat) : (freeBandBuffers l s).page? id = s.page? id := rfl

/-- A band that goes leaves every page in the queue, with its id and its template buffer. -/
theorem dropBand_page? (id b k : Nat) (s : State) {p : Page} (h : s.page? k = some p) :
    ∃ q, (dropBand id b s).page? k = some q := by
  unfold dropBand
  split
  · exact ⟨p, h⟩
  · rename_i p' hp'
    split
    · exact ⟨p, h⟩
    · by_cases hk : k = p'.id
      · subst hk
        exact ⟨_, setPage_page? (p := { p' with bands := _ }) (by simpa [freeBandBuffers_page?] using h)⟩
      · exact ⟨p, by rw [setPage_page?_ne (by exact hk)]; exact h⟩

theorem reclaimUntil_moves (need : Nat) (l : List (Nat × Nat)) (s : State) : Moves lim s (reclaimUntil need l s) := by
  induction l generalizing s with
  | nil => exact Moves.refl _
  | cons k rest ih =>
    simp only [reclaimUntil]
    split
    · exact Moves.refl _
    · exact (dropBand_moves _ _ _).trans (ih _)

theorem reclaimUntil_page? (need : Nat) (l : List (Nat × Nat)) (s : State) (k : Nat) {p : Page} (h : s.page? k = some p) :
    ∃ q, (reclaimUntil need l s).page? k = some q := by
  induction l generalizing s p with
  | nil => exact ⟨p, h⟩
  | cons x rest ih =>
    simp only [reclaimUntil]
    split
    · exact ⟨p, h⟩
    · obtain ⟨q, hq⟩ := dropBand_page? x.1 x.2 k s h
      exact ih _ hq

theorem beginBand_moves (item : WorkItem) (need : Nat) (s : State) {p : Page} (hp : s.page? item.page = some p) :
    Moves lim s (beginBand item need s) := by
  unfold beginBand modPage
  dsimp only
  have : ({ s with freeBuffers := s.freeBuffers.drop need, compositor := .busy item need } : State).page? item.page =
    some p := hp
  rw [this]
  exact (Move.beginBand p { index := item.band, buffers := s.freeBuffers.take need, state := .composing } need
    (.busy item need) (page?_self hp) rfl _ (insertSorted_sum _ _ _ _)).moves

theorem compositor_moves (c : Compositor) (s : State) : Moves lim s { s with compositor := c } := (Move.compositor c).moves

theorem allocate_moves (item : WorkItem) (s : State) : Moves lim s (allocate item s) := by
  unfold allocate
  split
  · exact compositor_moves _ _
  · rename_i t ht
    obtain ⟨p, hp, -⟩ := Option.bind_eq_some_iff.1 ht
    split
    · exact beginBand_moves _ _ _ hp
    · dsimp only
      split
      · exact compositor_moves _ _
      · obtain ⟨q, hq⟩ := reclaimUntil_page? t.need (s.reclaimOrder item.page) s item.page hp
        exact (reclaimUntil_moves _ _ _).trans (beginBand_moves _ _ _ hq)

theorem selectBand_moves (s : State) : Moves lim s (selectBand s) := by
  unfold selectBand
  split
  · exact allocate_moves _ _
  · exact compositor_moves _ _

theorem startable_mem {s : State} {p : Page} (h : s.startable = some p) : p ∈ s.pages := by
  unfold State.startable at h
  split at h
  · cases h
  · rename_i q hq
    dsimp only at h
    split at h
    · cases h; exact List.mem_of_find?_eq_some hq
    · cases h

theorem selectWork_moves (s : State) : Moves lim s (selectWork s) := by
  unfold selectWork
  split
  · exact Moves.refl _
  · split
    · exact allocate_moves _ _
    · split
      · rename_i p hp
        exact (compositionStart_moves (startable_mem hp)).trans (selectBand_moves _)
      · exact compositor_moves _ _

theorem setBandState_held (b : Nat) (st : BandState) (p : Page) : (setBandState b st p).held = p.held := by
  simp only [Page.held, setBandState, List.map_map]
  congr 1
  refine List.map_congr_left fun r _ => ?_
  simp only [Function.comp]
  split <;> rfl

theorem writeStore_moves (places : List (Nat × Nat)) (bytes : List Byte) (s : State) :
    Moves lim s { s with store := writePieces places bytes s.store } := (Move.store places bytes).moves

theorem writeBand_moves (s u : State) (p : Page) (r : BandRecord) (h : s.store = u.store) :
    Moves lim u { u with store := writeBand s p r } := by
  unfold writeBand
  split
  · dsimp only
    rw [h]; exact writeStore_moves _ _ _
  · rw [h]

theorem completeBand_moves (item : WorkItem) (s : State) : Moves lim s (completeBand item s) := by
  unfold completeBand
  dsimp only
  have m := compositor_moves (lim := lim) .free s
  split
  · exact m
  · rename_i p hp
    split
    · exact m
    · rename_i r hr
      refine (m.trans (writeBand_moves _ _ p r rfl)).trans (setPage_moves (p := p) (page?_mem hp) ?_)
      exact ⟨rfl, setBandState_held _ _ p, rfl, rfl, .inl rfl, fun h => .inl h⟩

theorem retainBand_moves (id b : Nat) (s : State) : Moves lim s (retainBand id b s) := by
  unfold retainBand
  split
  · exact Moves.refl _
  · rename_i p hp
    split
    · exact Moves.refl _
    · split
      · exact setPage_moves (page?_mem hp) ⟨rfl, setBandState_held _ _ p, rfl, rfl, .inl rfl, fun h => .inl h⟩
      · exact dropBand_moves _ _ _

/-! ## The head port -/

theorem port_moves (cursor : Option Nat) (sending : Option Sending) (counters : HeadCounters) (s : State) :
    Moves lim s { s with cursor := cursor, sending := sending, headCounters := counters } :=
  (Move.port cursor sending counters).moves

theorem modCounters_moves (f : HeadCounters → HeadCounters) (s : State) : Moves lim s (modCounters f s) :=
  port_moves s.cursor s.sending _ s

theorem headProtocol_moves (type id : Nat) (reason : HeadReason) (s : State) :
    Moves lim s (headProtocol type id reason s) := (modCounters_moves _ _).trans (notify_moves _ _ _ _ _)

theorem filter_purge_moves (f : Nat → Bool) (s : State) : Moves lim s { s with purge := s.purge.filter f } :=
  (Move.purge _ (.inl (List.length_filter_le _ _))).moves

theorem makeOffer_moves {p : Page} {s : State} (t : TemplateBuffer) (hp : p ∈ s.pages) (ho : s.offer = none)
    (hl : s.path.length < Config.pathMax) : Moves lim s (makeOffer p t s) := by
  unfold makeOffer
  dsimp only
  generalize hs1 : setPage { p with
    state := .offered, attempt := if p.attempt = 0 then 1 else p.attempt, spoiled := false
    sendLog := List.replicate t.bandCount .unsent } s = s1
  have m1 : Moves lim s s1 := by
    rw [← hs1]
    refine setPage_moves hp ⟨rfl, rfl, rfl, rfl, ?_, by rintro ⟨⟩⟩
    dsimp only
    split
    · exact .inr (.inr ⟨‹_›, rfl⟩)
    · exact .inl rfl
  have ho1 : s1.offer = none := by rw [← hs1]; exact ho
  have hl1 : s1.path.length < Config.pathMax := by rw [← hs1]; exact hl
  have m2 := m1.trans (Move.offered { page := p.id, printing := false } ho1 hl1).moves
  have m3 := m2.trans (filter_purge_moves (fun x => decide (x ≠ p.id)) _)
  exact ((m3.trans (emit_moves _ _)).trans (modCounters_moves _ _)).trans (notify_moves _ _ _ _ _)

theorem candidate_mem {s : State} {p : Page} (h : s.candidate = some p) : p ∈ s.pages := by
  unfold State.candidate at h
  split at h
  · rename_i q hq; cases h; exact List.mem_of_find?_eq_some hq
  · exact List.mem_of_find?_eq_some h

theorem offerRule_moves (s : State) : Moves lim s (offerRule s) := by
  unfold offerRule
  split
  · rename_i p ho hc
    split
    · split
      · rename_i h
        simp only [Bool.and_eq_true, decide_eq_true_eq] at h
        exact makeOffer_moves _ (candidate_mem hc) ho h.1
      · exact Moves.refl _
    · exact Moves.refl _
  · exact Moves.refl _

theorem pump_moves (s : State) : Moves lim s (pump s) := (offerRule_moves s).trans (selectWork_moves _)

theorem slot_moves (o : Option OfferSlot) (s : State) (h : o.toList.length ≤ s.offer.toList.length) :
    Moves lim s { s with offer := o } := (Move.slot o h).moves

theorem pressStart_moves (id : Nat) (s : State) : Moves lim s (pressStart id s) := by
  unfold pressStart
  split
  · exact Moves.refl _
  · split
    · exact headProtocol_moves _ _ _ _
    · rename_i slot ho
      split
      · exact headProtocol_moves _ _ _ _
      · split
        · exact headProtocol_moves _ _ _ _
        · have m1 : Moves lim s { s with offer := some { slot with printing := true } } :=
            slot_moves _ s (by rw [ho]; exact Nat.le_refl _)
          have m2 := m1.trans (port_moves (some 0) s.sending s.headCounters _)
          exact m2.trans (modPage_moves _ _ fun p _ => ⟨rfl, rfl, rfl, rfl, .inl rfl, by rintro ⟨⟩⟩)

theorem beginSending_moves {p : Page} {s : State} (t : TemplateBuffer) (b : Nat) (real : Bool) (pixels : List Byte)
    (hp : p ∈ s.pages) : Moves lim s (beginSending p t b real pixels s) := by
  unfold beginSending
  dsimp only
  have m1 : Moves lim s (setPage { p with
      sendLog := p.sendLog.set b (if real then .real else .filler), spoiled := p.spoiled || !real } s) :=
    setPage_moves hp ⟨rfl, rfl, rfl, rfl, .inl rfl, fun h => .inl h⟩
  exact (m1.trans (port_moves (some (b + 1)) (some { page := p.id, band := b, real := real }) _ _)).trans (emit_moves _ _)

theorem pressDemand_moves (s : State) : Moves lim s (pressDemand s) := by
  have hf : ∀ (p : Page) (t : TemplateBuffer) (b r : Nat), p ∈ s.pages → Moves lim s (sendFiller p t b r s) :=
    fun p t b r hp => ((beginSending_moves t b false _ hp).trans (modCounters_moves _ _)).trans (notify_moves _ _ _ _ _)
  unfold pressDemand
  split
  · split
    · exact headProtocol_moves _ _ _ _
    · exact Moves.refl _
  · rename_i p hp
    have hp := List.mem_of_find?_eq_some hp
    split
    · exact headProtocol_moves _ _ _ _
    · split
      · exact Moves.refl _
      · dsimp only
        split
        · split
          · exact beginSending_moves _ _ _ _ hp
          · exact hf _ _ _ _ hp
        · exact hf _ _ _ _ hp

theorem leaveSlot_moves (id : Nat) (s : State) : Moves lim s (leaveSlot id s) := by
  unfold leaveSlot
  split
  · split
    · have m1 : Moves lim s { s with offer := none } := slot_moves _ s (Nat.zero_le _)
      exact m1.trans (port_moves none s.sending s.headCounters _)
    · exact Moves.refl _
  · exact Moves.refl _

theorem leaveSlot_pages (id : Nat) (s : State) : (leaveSlot id s).pages = s.pages := by
  unfold leaveSlot
  split
  · split <;> rfl
  · rfl

theorem endSending_moves (x : Sending) (s : State) : Moves lim s (endSending x s) := by
  unfold endSending
  dsimp only
  have m0 : Moves lim s (emit .bandEnd { s with sending := none }) :=
    (port_moves s.cursor none s.headCounters s).trans (emit_moves _ _)
  generalize emit .bandEnd { s with sending := none } = s0 at m0
  have m1 : Moves lim s (if x.real then retainBand x.page x.band s0 else s0) := by
    split
    · exact m0.trans (retainBand_moves _ _ _)
    · exact m0
  generalize (if x.real then retainBand x.page x.band s0 else s0) = s1 at m1
  split
  · exact m1
  · rename_i p hp
    split
    · split
      · rename_i slot ho
        split
        · rename_i hs
          have hl : leaveSlot x.page s1 = { s1 with offer := none, cursor := none } := by
            unfold leaveSlot
            rw [ho]
            exact if_pos hs
          rw [hl]
          have m2 := m1.trans (Move.enterPath x.page (by rw [ho]; rfl)).moves
          have m3 := m2.trans (port_moves none s1.sending s1.headCounters _)
          exact m3.trans (setPage_moves (p := p) (page?_mem hp) ⟨rfl, rfl, rfl, rfl, .inl rfl, by rintro ⟨⟩⟩)
        · exact m1
      · exact m1
    · exact m1

theorem stopSending_moves (ids : List Nat) (s : State) : Moves lim s (stopSending ids s) := by
  unfold stopSending
  split
  · split
    · exact (port_moves s.cursor none s.headCounters s).trans (emit_moves _ _)
    · exact Moves.refl _
  · exact Moves.refl _

theorem path_moves (l : List Nat) (s : State) (h : l.length ≤ s.path.length) : Moves lim s { s with path := l } :=
  (Move.path l h).moves

theorem pressDone_moves (id : Nat) (s : State) : Moves lim s (pressDone id s) := by
  unfold pressDone
  split
  · exact filter_purge_moves _ _
  · split
    · have m1 : Moves lim s { s with path := s.path.tail } := path_moves _ s (by simp)
      exact (m1.trans (modCounters_moves _ _)).trans
        (releasePage_moves _ _ _ _ (fun p s => notify_moves _ _ _ _ s) (fun p s => notify_pages _ _ _ _ s))
    · split
      · exact headProtocol_moves _ _ _ _
      · exact headProtocol_moves _ _ _ _

theorem replayRecords_held (p : Page) : ((replayRecords p.bands).map (·.buffers.length)).sum = p.held := by
  simp only [Page.held, replayRecords, List.map_map]
  congr 1
  refine List.map_congr_left fun r _ => ?_
  simp only [Function.comp]
  split <;> rfl

theorem returnPage_moves (acc : State × Nat × Nat) (id : Nat) : Moves lim acc.1 (returnPage acc id).1 := by
  obtain ⟨s, n, f⟩ := acc
  unfold returnPage
  dsimp only
  split
  · exact Moves.refl _
  · rename_i p hp
    have m1 : Moves lim s { s with path := s.path.filter (· ≠ id) } := path_moves _ s (List.length_filter_le _ _)
    have m2 := m1.trans (leaveSlot_moves id _)
    have hq : (leaveSlot id { s with path := s.path.filter (· ≠ id) }).pages = s.pages := leaveSlot_pages _ _
    split
    · rename_i ha
      exact m2.trans (setPage_moves (p := p) (by rw [hq]; exact page?_mem hp)
        ⟨rfl, replayRecords_held p, rfl, rfl, .inr (.inl ha), by rintro ⟨⟩⟩)
    · exact m2.trans (releasePage_moves _ _ _ _ (fun p s => notify_moves _ _ _ _ s) (fun p s => notify_pages _ _ _ _ s))

theorem foldl_returnPage_moves (ids : List Nat) (acc : State × Nat × Nat) :
    Moves lim acc.1 (ids.foldl returnPage acc).1 := by
  induction ids generalizing acc with
  | nil => exact Moves.refl _
  | cons id rest ih => exact (returnPage_moves acc id).trans (ih _)

theorem returnPages_moves (ids : List Nat) (s : State) : Moves lim s (returnPages ids s).1 :=
  (stopSending_moves ids s).trans (foldl_returnPage_moves ids (stopSending ids s, 0, 0))

theorem pressFault_moves (id : Nat) (s : State) : Moves lim s (pressFault id s) := by
  unfold pressFault
  split
  · exact filter_purge_moves _ _
  · split
    · exact headProtocol_moves _ _ _ _
    · split
      · exact ((modCounters_moves _ _).trans (returnPages_moves _ _)).trans (notify_moves _ _ _ _ _)
      · exact headProtocol_moves _ _ _ _

theorem pressRestart_moves (s : State) : Moves lim s (pressRestart s) := by
  unfold pressRestart
  dsimp only
  have m1 := (modCounters_moves (lim := lim) (fun c => { c with restarts := bump c.restarts }) s).trans
    (returnPages_moves ((s.pages.filter (·.state.atPress)).map (·.id)) _)
  exact (m1.trans (Move.purge [] (.inl (Nat.zero_le _))).moves).trans (notify_moves _ _ _ _ _)

theorem purgePress_moves (s : State) : Moves lim s (purgePress s) := by
  unfold purgePress
  have key : ∀ (ids : List Nat) (s1 : State), Moves lim s s1 → Moves lim s { ids.foldl (fun s id => emit (.purge id) s) s1 with
      purge := trimPurge ((ids.foldl (fun s id => emit (.purge id) s) s1).purge ++ ids), offer := none, path := []
      cursor := none } := by
    intro ids s1 m1
    have m2 := m1.trans (foldl_moves (fun s id => emit (.purge id) s) (fun s id => emit_moves _ s) ids s1)
    generalize ids.foldl (fun s id => emit (.purge id) s) s1 = s2 at m2
    have m3 := m2.trans (Move.purge (trimPurge (s2.purge ++ ids)) (.inr (by
      simp only [trimPurge, List.length_drop]
      omega))).moves
    have m4 := m3.trans (slot_moves none _ (Nat.zero_le _))
    have m5 := m4.trans (path_moves [] _ (Nat.zero_le _))
    have m6 := m5.trans (port_moves none s2.sending s2.headCounters _)
    exact m6
  refine key _ _ ?_
  split
  · exact (port_moves s.cursor none s.headCounters s).trans (emit_moves _ _)
  · exact Moves.refl _

end Sys2Proof.Machine
end

