-- ==== Sys2Proof/Laws/Wire.lean ====
section
/-! SUPPORT. The wire forms: a field reads back the number that was written (R179), the header of a record, and where the
fields of a record's body stand. -/

namespace Sys2Proof.Machine

/-! ## Numbers and fields -/

@[simp] theorem beBytes_length (w n : Nat) : (beBytes w n).length = w := by
  induction w with
  | zero => rfl
  | succ w ih => simp [beBytes, ih]

theorem beNumber_foldl (bytes : List Byte) (a : Nat) :
    bytes.foldl (fun n b => n * 256 + b.toNat) a = a * 256 ^ bytes.length + beNumber bytes := by
  induction bytes generalizing a with
  | nil => simp [beNumber]
  | cons b rest ih =>
    have h0 := ih (0 * 256 + b.toNat)
    rw [beNumber, List.foldl_cons, List.foldl_cons, ih, h0, List.length_cons, pow_succ]
    ring

theorem beNumber_cons (b : Byte) (rest : List Byte) : beNumber (b :: rest) = b.toNat * 256 ^ rest.length + beNumber rest := by
  rw [beNumber, List.foldl_cons, beNumber_foldl]; simp

theorem beNumber_beBytes_mod (w n : Nat) : beNumber (beBytes w n) = n % 256 ^ w := by
  induction w with
  | zero => simp [beBytes, beNumber, Nat.mod_one]
  | succ w ih =>
    rw [beBytes, beNumber_cons, beBytes_length, ih, BitVec.toNat_ofNat]
    have h1 : n % 256 ^ (w + 1) = n % 256 ^ w + 256 ^ w * (n / 256 ^ w % 256) := by
      rw [pow_succ, Nat.mod_mul]
    rw [h1]; norm_num; ring

/-- A field of `w` bytes carries every number that fits it (R179). -/
theorem beNumber_beBytes {w n : Nat} (h : n < 256 ^ w) : beNumber (beBytes w n) = n := by
  rw [beNumber_beBytes_mod, Nat.mod_eq_of_lt h]

theorem field_beBytes_append {w n : Nat} (rest : List Byte) (h : n < 256 ^ w) : field (beBytes w n ++ rest) 0 w = n := by
  rw [field, List.drop_zero, List.take_left' (beBytes_length w n), beNumber_beBytes h]

theorem field_skip (front rest : List Byte) {o : Nat} (w : Nat) (h : front.length ≤ o) :
    field (front ++ rest) o w = field rest (o - front.length) w := by
  obtain ⟨d, rfl⟩ := Nat.exists_eq_add_of_le h
  simp [field, List.drop_append, List.drop_eq_nil_of_le h]

/-- The field after one of `k` bytes. -/
theorem field_after (k n : Nat) (rest : List Byte) {o : Nat} (w : Nat) (h : k ≤ o) :
    field (beBytes k n ++ rest) o w = field rest (o - k) w := by
  have := field_skip (beBytes k n) rest w (o := o) (by simpa using h)
  simpa using this

theorem field_beBytes {w n : Nat} (h : n < 256 ^ w) : field (beBytes w n) 0 w = n := by
  simpa using field_beBytes_append [] h

theorem drop_after (k n o : Nat) (rest : List Byte) (h : k ≤ o) : (beBytes k n ++ rest).drop o = rest.drop (o - k) := by
  obtain ⟨d, rfl⟩ := Nat.exists_eq_add_of_le h
  rw [Nat.add_sub_cancel_left]
  conv_lhs => rw [← beBytes_length k n]
  simp [List.drop_append]

/-! ## The header of a record (11.2) -/

theorem recordBytes_length (kind tag : Nat) (body : List Byte) : (recordBytes kind tag body).length = 8 + body.length := by
  simp [recordBytes]; omega

theorem recKindCode_recordBytes {kind : Nat} (tag : Nat) (body : List Byte) (h : kind < 256) :
    recKindCode (recordBytes kind tag body) = kind := by
  simp only [recKindCode, recordBytes, List.append_assoc]
  exact field_beBytes_append _ (by simpa using h)

theorem recFlags_recordBytes (kind tag : Nat) (body : List Byte) : recFlags (recordBytes kind tag body) = 0 := by
  simp only [recFlags, recordBytes, List.append_assoc]
  rw [field_after _ _ _ _ (by decide)]
  exact field_beBytes_append _ (by decide)

theorem recLength_recordBytes (kind tag : Nat) {body : List Byte} (h : 8 + body.length < 65536) :
    recLength (recordBytes kind tag body) = 8 + body.length := by
  simp only [recLength, recordBytes, List.append_assoc]
  rw [field_after _ _ _ _ (by decide), field_after _ _ _ _ (by decide)]
  exact field_beBytes_append _ (by simpa using h)

theorem recTag_recordBytes (kind : Nat) {tag : Nat} (body : List Byte) (h : tag < 256 ^ 4) :
    recTag (recordBytes kind tag body) = tag := by
  simp only [recTag, recordBytes, List.append_assoc]
  rw [field_after _ _ _ _ (by decide), field_after _ _ _ _ (by decide), field_after _ _ _ _ (by decide)]
  exact field_beBytes_append _ h

/-- The fields after the header are those of the body. -/
theorem field_recordBytes (kind tag : Nat) (body : List Byte) {o : Nat} (w : Nat) (h : 8 ≤ o) :
    field (recordBytes kind tag body) o w = field body (o - 8) w := by
  simp only [recordBytes, List.append_assoc]
  rw [field_after _ _ _ _ (by omega), field_after _ _ _ _ (by omega), field_after _ _ _ _ (by omega),
    field_after _ _ _ _ (by omega)]
  rfl

theorem drop_recordBytes (kind tag : Nat) (body : List Byte) {o : Nat} (h : 8 ≤ o) :
    (recordBytes kind tag body).drop o = body.drop (o - 8) := by
  simp only [recordBytes, List.append_assoc]
  rw [drop_after _ _ _ _ (by omega), drop_after _ _ _ _ (by omega), drop_after _ _ _ _ (by omega),
    drop_after _ _ _ _ (by omega)]
  rfl

end Sys2Proof.Machine
end

