-- ==== Sys2Proof/Laws/PerInstr.lean ====
section
/-! SUPPORT. A law stated instruction by instruction: the record that a well-formed record command puts on its channel has a
legal length, says that length in its header, and passes the decoder's checks with its own kind (R6, R8, 11.2). -/

namespace Sys2Proof.Laws

/-- The kind of record that a command carries; none for commands that carry no record of a known kind. -/
def carriedKind : Instr → Option Machine.RecordKind
  | .linkFrame _ _ _ => none
  | .masterReset => none
  | .unknownKind _ _ _ _ => none
  | .jobOpen _ _ _ _ _ _ => some .jobOpen
  | .jobClose _ _ _ => some .jobClose
  | .roster _ _ _ _ _ => some .roster
  | .portraitHead _ _ _ _ _ _ _ _ _ _ _ => some .portraitHead
  | .portraitStrip _ _ _ _ _ _ => some .portraitStrip
  | .portraitEnd _ _ _ _ => some .portraitEnd
  | .template _ _ _ _ _ _ _ _ _ _ => some .template
  | .font _ _ _ _ _ _ => some .font
  | .glyph _ _ _ _ _ _ => some .glyph
  | .page _ _ _ _ _ _ _ _ _ => some .page
  | .pageCancel _ _ _ => some .pageCancel
  | .setReadyWatermark _ _ _ _ => some .set
  | .setStallLimit _ _ _ => some .set
  | .setGlobalTarget _ _ _ => some .set
  | .setLead _ _ _ => some .set
  | .setInterval _ _ _ _ => some .set
  | .setStoreLowMark _ _ _ => some .set
  | .queryStatus _ _ => some .query
  | .queryChannel _ _ _ => some .query
  | .queryEntry _ _ _ => some .query
  | .queryPage _ _ _ => some .query
  | .queryJob _ _ _ => some .query
  | .queryTemplate _ _ _ => some .query
  | .flagsClearOverflow _ _ _ => some .flagsClear
  | .flagsClearFraming _ _ _ => some .flagsClear
  | .flagsClearStoreLowSeen _ _ => some .flagsClear
  | .noticeFlush _ _ => some .noticeFlush
  | .channelReset _ _ _ => some .channelReset
  | .clear _ _ => some .clear
  | .start _ => none
  | .demand => none
  | .done _ => none
  | .fault _ => none
  | .restart => none
  | .badMessage _ _ => none
  | .bandCompositionComplete => none
  | .bandSendingEnd => none
  | .returnTransferEnd => none
  | .stallLimitExpiry _ => none
  | .holdExpiry => none
  | .gateExpiry _ => none
  | .resetInputHigh => none

/-- What the decoder's checks answer for the record of a command (R8). -/
def checked (i : Instr) : Except Machine.Reason Machine.RecordKind :=
  match carriedKind i with
  | some kind => .ok kind
  | none => .error .unknownKind

/-- The record of a well-formed command is one that its channel reassembles whole and that passes the decoder's checks. -/
def WireForm.Statement (i : Instr) : Prop :=
  i.wf = true → ∀ ch b, i.wireRecord = some (ch, b) →
    Config.minRecord ≤ b.length ∧ b.length ≤ Config.maxRecord ∧ Machine.recLength b = b.length ∧
    Machine.decoderCheck b = checked i

theorem ofCode_code (kind : Machine.RecordKind) : Machine.RecordKind.ofCode kind.code = some kind := by cases kind <;> rfl

theorem code_lt (kind : Machine.RecordKind) : kind.code < 256 := by cases kind <;> decide

/-- A record of a known kind with its fixed part passes the decoder's checks (R8). -/
theorem decoderCheck_recordBytes (kind : Machine.RecordKind) (tag : Nat) (body : List Byte)
    (h : kind.fixedPart ≤ 8 + body.length) : Machine.decoderCheck (Machine.recordBytes kind.code tag body) = .ok kind := by
  simp only [Machine.decoderCheck, Machine.recKind, Machine.recKindCode_recordBytes tag body (code_lt kind), ofCode_code,
    Machine.recFlags_recordBytes, Machine.recordBytes_length]
  simp [Nat.not_lt.mpr h]

theorem wireForm_recordBytes (kind : Machine.RecordKind) (tag : Nat) (body : List Byte)
    (h : kind.fixedPart ≤ 8 + body.length) (hm : 8 + body.length ≤ 4096) :
    let b := Machine.recordBytes kind.code tag body
    Config.minRecord ≤ b.length ∧ b.length ≤ Config.maxRecord ∧ Machine.recLength b = b.length ∧
      Machine.decoderCheck b = .ok kind := by
  refine ⟨?_, ?_, ?_, decoderCheck_recordBytes kind tag body h⟩
  · rw [Machine.recordBytes_length]; simp [Config.minRecord]
  · rw [Machine.recordBytes_length]; simpa [Config.maxRecord] using hm
  · rw [Machine.recLength_recordBytes _ _ (by omega), Machine.recordBytes_length]

theorem ofCode_unknown {n : Nat} (h : intakeKindCodes.contains n = false) : Machine.RecordKind.ofCode n = none := by
  unfold Machine.RecordKind.ofCode
  split <;> first | rfl | simp [intakeKindCodes] at h

theorem slotEntryBytes_length (f : SlotFields) : (Machine.slotEntryBytes f).length = 20 := by
  simp [Machine.slotEntryBytes, Machine.rgbBytes]

namespace WireForm

theorem linkFrame (ch : Chan) (sync : Bool) (payload : List Byte) : Statement (.linkFrame ch sync payload) := by
  rintro _ _ _ ⟨⟩

theorem masterReset : Statement (.masterReset) := by
  rintro _ _ _ ⟨⟩

theorem unknownKind (ch : Chan) (kind : Nat) (tag : Nat) (body : List Byte) : Statement (.unknownKind ch kind tag body) := by
  rintro hw ch' b ⟨⟩
  simp only [Instr.wf, fitsBytes, Bool.and_eq_true, Bool.not_eq_true', decide_eq_true_eq] at hw
  obtain ⟨⟨⟨hk, hc⟩, _⟩, hm⟩ := hw
  refine ⟨?_, ?_, ?_, ?_⟩
  · rw [Machine.recordBytes_length]; simp [Config.minRecord]
  · rw [Machine.recordBytes_length]; exact hm
  · rw [Machine.recLength_recordBytes _ _ (by simp [Config.maxRecord] at hm; omega), Machine.recordBytes_length]
  · simp only [Machine.decoderCheck, Machine.recKind, Machine.recKindCode_recordBytes tag body (by simpa using hk),
      ofCode_unknown hc]
    rfl

theorem jobOpen (ch : Chan) (tag : Nat) (jobId : Nat) (target : Nat) (base : Nat) (limit : Nat) : Statement (.jobOpen ch tag jobId target base limit) := by
  rintro - ch' b ⟨⟩
  refine wireForm_recordBytes .jobOpen tag _ ?_ ?_ <;> simp [Machine.RecordKind.fixedPart]

theorem jobClose (ch : Chan) (tag : Nat) (jobId : Nat) : Statement (.jobClose ch tag jobId) := by
  rintro - ch' b ⟨⟩
  refine wireForm_recordBytes .jobClose tag _ ?_ ?_ <;> simp [Machine.RecordKind.fixedPart]

theorem roster (ch : Chan) (tag : Nat) (key : Nat) (publication : Nat) (name : List Byte) : Statement (.roster ch tag key publication name) := by
  rintro hw ch' b ⟨⟩
  simp only [Instr.wf, fitsBytes, Bool.and_eq_true, decide_eq_true_eq] at hw
  refine wireForm_recordBytes .roster tag _ ?_ ?_ <;>
    simp [Machine.RecordKind.fixedPart] <;> omega

theorem portraitHead (ch : Chan) (tag : Nat) (key : Nat) (version : Nat) (w : Nat) (h : Nat) (fx : Nat) (fy : Nat) (fw : Nat) (fh : Nat) (g : Nat) : Statement (.portraitHead ch tag key version w h fx fy fw fh g) := by
  rintro - ch' b ⟨⟩
  refine wireForm_recordBytes .portraitHead tag _ ?_ ?_ <;> simp [Machine.RecordKind.fixedPart]

theorem portraitStrip (ch : Chan) (tag : Nat) (key : Nat) (index : Nat) (lines : Nat) (pixels : List Byte) : Statement (.portraitStrip ch tag key index lines pixels) := by
  rintro hw ch' b ⟨⟩
  simp only [Instr.wf, fitsBytes, Config.maxRecord, Bool.and_eq_true, decide_eq_true_eq] at hw
  refine wireForm_recordBytes .portraitStrip tag _ ?_ ?_ <;>
    simp [Machine.RecordKind.fixedPart] <;> omega

theorem portraitEnd (ch : Chan) (tag : Nat) (key : Nat) (total : Nat) : Statement (.portraitEnd ch tag key total) := by
  rintro - ch' b ⟨⟩
  refine wireForm_recordBytes .portraitEnd tag _ ?_ ?_ <;> simp [Machine.RecordKind.fixedPart]

theorem template (ch : Chan) (tag : Nat) (n : Nat) (w : Nat) (h : Nat) (bh : Nat) (bg : Rgb) (ph : Rgb) (ink : Rgb) (slots : List SlotFields) : Statement (.template ch tag n w h bh bg ph ink slots) := by
  rintro hw ch' b ⟨⟩
  simp only [Instr.wf, fitsBytes, Config.maxRecord, Bool.and_eq_true, decide_eq_true_eq] at hw
  refine wireForm_recordBytes .template tag _ ?_ ?_ <;>
    simp [Machine.RecordKind.fixedPart, slotEntryBytes_length, Machine.rgbBytes] <;> omega

theorem font (ch : Chan) (tag : Nat) (number : Nat) (height : Nat) (tracking : Nat) (blank : Nat) : Statement (.font ch tag number height tracking blank) := by
  rintro - ch' b ⟨⟩
  refine wireForm_recordBytes .font tag _ ?_ ?_ <;> simp [Machine.RecordKind.fixedPart]

theorem glyph (ch : Chan) (tag : Nat) (number : Nat) (code : Nat) (advance : Nat) (bitmap : List Byte) : Statement (.glyph ch tag number code advance bitmap) := by
  rintro hw ch' b ⟨⟩
  simp only [Instr.wf, fitsBytes, Config.maxRecord, Bool.and_eq_true, decide_eq_true_eq] at hw
  refine wireForm_recordBytes .glyph tag _ ?_ ?_ <;>
    simp [Machine.RecordKind.fixedPart] <;> omega

theorem page (ch : Chan) (tag : Nat) (id : Nat) (hold : Nat) (job : Nat) (n : Nat) (attempts : Nat) (title : List Byte) (keys : List Nat) : Statement (.page ch tag id hold job n attempts title keys) := by
  rintro hw ch' b ⟨⟩
  simp only [Instr.wf, fitsBytes, Bool.and_eq_true, decide_eq_true_eq] at hw
  refine wireForm_recordBytes .page tag _ ?_ ?_ <;>
    simp [Machine.RecordKind.fixedPart] <;> omega

theorem pageCancel (ch : Chan) (tag : Nat) (pageId : Nat) : Statement (.pageCancel ch tag pageId) := by
  rintro - ch' b ⟨⟩
  refine wireForm_recordBytes .pageCancel tag _ ?_ ?_ <;> simp [Machine.RecordKind.fixedPart]

theorem setReadyWatermark (ch : Chan) (tag : Nat) (target : Chan) (value : Nat) : Statement (.setReadyWatermark ch tag target value) := by
  rintro - ch' b ⟨⟩
  refine wireForm_recordBytes .set tag _ ?_ ?_ <;> simp [Machine.RecordKind.fixedPart]

theorem setStallLimit (ch : Chan) (tag : Nat) (value : Nat) : Statement (.setStallLimit ch tag value) := by
  rintro - ch' b ⟨⟩
  refine wireForm_recordBytes .set tag _ ?_ ?_ <;> simp [Machine.RecordKind.fixedPart]

theorem setGlobalTarget (ch : Chan) (tag : Nat) (value : Nat) : Statement (.setGlobalTarget ch tag value) := by
  rintro - ch' b ⟨⟩
  refine wireForm_recordBytes .set tag _ ?_ ?_ <;> simp [Machine.RecordKind.fixedPart]

theorem setLead (ch : Chan) (tag : Nat) (value : Nat) : Statement (.setLead ch tag value) := by
  rintro - ch' b ⟨⟩
  refine wireForm_recordBytes .set tag _ ?_ ?_ <;> simp [Machine.RecordKind.fixedPart]

theorem setInterval (ch : Chan) (tag : Nat) (cls : NoticeClass) (value : Nat) : Statement (.setInterval ch tag cls value) := by
  rintro - ch' b ⟨⟩
  refine wireForm_recordBytes .set tag _ ?_ ?_ <;> simp [Machine.RecordKind.fixedPart]

theorem setStoreLowMark (ch : Chan) (tag : Nat) (value : Nat) : Statement (.setStoreLowMark ch tag value) := by
  rintro - ch' b ⟨⟩
  refine wireForm_recordBytes .set tag _ ?_ ?_ <;> simp [Machine.RecordKind.fixedPart]

theorem queryStatus (ch : Chan) (tag : Nat) : Statement (.queryStatus ch tag) := by
  rintro - ch' b ⟨⟩
  refine wireForm_recordBytes .query tag _ ?_ ?_ <;> simp [Machine.RecordKind.fixedPart]

theorem queryChannel (ch : Chan) (tag : Nat) (channel : Nat) : Statement (.queryChannel ch tag channel) := by
  rintro - ch' b ⟨⟩
  refine wireForm_recordBytes .query tag _ ?_ ?_ <;> simp [Machine.RecordKind.fixedPart]

theorem queryEntry (ch : Chan) (tag : Nat) (key : Nat) : Statement (.queryEntry ch tag key) := by
  rintro - ch' b ⟨⟩
  refine wireForm_recordBytes .query tag _ ?_ ?_ <;> simp [Machine.RecordKind.fixedPart]

theorem queryPage (ch : Chan) (tag : Nat) (pageId : Nat) : Statement (.queryPage ch tag pageId) := by
  rintro - ch' b ⟨⟩
  refine wireForm_recordBytes .query tag _ ?_ ?_ <;> simp [Machine.RecordKind.fixedPart]

theorem queryJob (ch : Chan) (tag : Nat) (jobId : Nat) : Statement (.queryJob ch tag jobId) := by
  rintro - ch' b ⟨⟩
  refine wireForm_recordBytes .query tag _ ?_ ?_ <;> simp [Machine.RecordKind.fixedPart]

theorem queryTemplate (ch : Chan) (tag : Nat) (number : Nat) : Statement (.queryTemplate ch tag number) := by
  rintro - ch' b ⟨⟩
  refine wireForm_recordBytes .query tag _ ?_ ?_ <;> simp [Machine.RecordKind.fixedPart]

theorem flagsClearOverflow (ch : Chan) (tag : Nat) (target : Chan) : Statement (.flagsClearOverflow ch tag target) := by
  rintro - ch' b ⟨⟩
  refine wireForm_recordBytes .flagsClear tag _ ?_ ?_ <;> simp [Machine.RecordKind.fixedPart]

theorem flagsClearFraming (ch : Chan) (tag : Nat) (target : Chan) : Statement (.flagsClearFraming ch tag target) := by
  rintro - ch' b ⟨⟩
  refine wireForm_recordBytes .flagsClear tag _ ?_ ?_ <;> simp [Machine.RecordKind.fixedPart]

theorem flagsClearStoreLowSeen (ch : Chan) (tag : Nat) : Statement (.flagsClearStoreLowSeen ch tag) := by
  rintro - ch' b ⟨⟩
  refine wireForm_recordBytes .flagsClear tag _ ?_ ?_ <;> simp [Machine.RecordKind.fixedPart]

theorem noticeFlush (ch : Chan) (tag : Nat) : Statement (.noticeFlush ch tag) := by
  rintro - ch' b ⟨⟩
  refine wireForm_recordBytes .noticeFlush tag _ ?_ ?_ <;> simp [Machine.RecordKind.fixedPart]

theorem channelReset (ch : Chan) (tag : Nat) (target : Nat) : Statement (.channelReset ch tag target) := by
  rintro - ch' b ⟨⟩
  refine wireForm_recordBytes .channelReset tag _ ?_ ?_ <;> simp [Machine.RecordKind.fixedPart]

theorem clear (ch : Chan) (tag : Nat) : Statement (.clear ch tag) := by
  rintro - ch' b ⟨⟩
  refine wireForm_recordBytes .clear tag _ ?_ ?_ <;> simp [Machine.RecordKind.fixedPart]

theorem start (pageId : Nat) : Statement (.start pageId) := by
  rintro _ _ _ ⟨⟩

theorem demand : Statement (.demand) := by
  rintro _ _ _ ⟨⟩

theorem done (pageId : Nat) : Statement (.done pageId) := by
  rintro _ _ _ ⟨⟩

theorem fault (pageId : Nat) : Statement (.fault pageId) := by
  rintro _ _ _ ⟨⟩

theorem restart : Statement (.restart) := by
  rintro _ _ _ ⟨⟩

theorem badMessage (type : Nat) (pageId : Nat) : Statement (.badMessage type pageId) := by
  rintro _ _ _ ⟨⟩

theorem bandCompositionComplete : Statement (.bandCompositionComplete) := by
  rintro _ _ _ ⟨⟩

theorem bandSendingEnd : Statement (.bandSendingEnd) := by
  rintro _ _ _ ⟨⟩

theorem returnTransferEnd : Statement (.returnTransferEnd) := by
  rintro _ _ _ ⟨⟩

theorem stallLimitExpiry (ch : Chan) : Statement (.stallLimitExpiry ch) := by
  rintro _ _ _ ⟨⟩

theorem holdExpiry : Statement (.holdExpiry) := by
  rintro _ _ _ ⟨⟩

theorem gateExpiry (cls : NoticeClass) : Statement (.gateExpiry cls) := by
  rintro _ _ _ ⟨⟩

theorem resetInputHigh : Statement (.resetInputHigh) := by
  rintro _ _ _ ⟨⟩

end WireForm

end Sys2Proof.Laws
end

