-- ==== Sys2Proof/Laws/Rest.lean ====
section
/-! SUPPORT. A part at rest: what follows an event where no record waits and no channel presents one, and the delivery of one
record on a quiet channel, which comes to that record's presentation (log entry 3). -/

namespace Sys2Proof.Machine

/-! ## The channels and the waiting list stand through what is not theirs -/

/-- Two states have the same channels and the same waiting list. -/
def SameLink (s t : State) : Prop := t.chans = s.chans ∧ t.waiting = s.waiting

theorem SameLink.rfl' (s : State) : SameLink s s := ⟨rfl, rfl⟩

theorem SameLink.trans {s t u : State} (h : SameLink s t) (k : SameLink t u) : SameLink s u :=
  ⟨k.1.trans h.1, k.2.trans h.2⟩

theorem SameLink.presents {s t : State} (h : SameLink s t) (ch : Chan) : t.presents ch = s.presents ch := by
  simp only [State.presents, State.stalled, State.waitOf, h.1, h.2]

theorem foldl_sameLink {α : Type} (f : State → α → State) (h : ∀ s a, SameLink s (f s a)) (l : List α) (s : State) :
    SameLink s (l.foldl f s) := by
  induction l generalizing s with
  | nil => exact .rfl' s
  | cons a rest ih => exact (h s a).trans (ih _)

theorem notify_sameLink (code : NoticeCode) (tag subject : Nat) (detail : List Item) (s : State) :
    SameLink s (notify code tag subject detail s) := ⟨notify_chans .., notify_waiting ..⟩

theorem judgeStore_sameLink (tag : Nat) (s : State) : SameLink s (judgeStore tag s) :=
  ⟨judgeStore_chans .., judgeStore_waiting ..⟩

theorem setPage_sameLink (p : Page) (s : State) : SameLink s (setPage p s) := ⟨rfl, rfl⟩

theorem modPage_sameLink (id : Nat) (f : Page → Page) (s : State) : SameLink s (modPage id f s) := by
  unfold modPage; split <;> exact ⟨rfl, rfl⟩

theorem pinVersion_sameLink (key : Nat) (s : State) : SameLink s (pinVersion key s) := by
  unfold pinVersion
  split
  · exact .rfl' s
  · split <;> exact ⟨rfl, rfl⟩

theorem fillGathering_sameLink (s : State) : SameLink s (fillGathering s) := by
  unfold fillGathering
  split
  · exact .rfl' s
  · split <;> exact ⟨rfl, rfl⟩

theorem compositionStart_sameLink (p : Page) (s : State) : SameLink s (compositionStart p s) := by
  unfold compositionStart
  split
  · exact .rfl' s
  · exact (foldl_sameLink (fun s (k : Nat × Nat) => pinVersion k.1 s) (fun s k => pinVersion_sameLink k.1 s) _ s).trans
      ((setPage_sameLink _ _).trans ((notify_sameLink ..).trans (fillGathering_sameLink _)))

theorem dropBand_sameLink (id b : Nat) (s : State) : SameLink s (dropBand id b s) := by
  unfold dropBand
  split
  · exact .rfl' s
  · split <;> exact ⟨rfl, rfl⟩

theorem reclaimUntil_sameLink (need : Nat) (l : List (Nat × Nat)) (s : State) : SameLink s (reclaimUntil need l s) := by
  induction l generalizing s with
  | nil => exact .rfl' s
  | cons k rest ih =>
    unfold reclaimUntil
    split
    · exact .rfl' s
    · exact (dropBand_sameLink _ _ s).trans (ih _)

theorem beginBand_sameLink (item : WorkItem) (need : Nat) (s : State) : SameLink s (beginBand item need s) :=
  SameLink.trans (t := { s with freeBuffers := s.freeBuffers.drop need, compositor := .busy item need }) ⟨rfl, rfl⟩
    (modPage_sameLink _ _ _)

theorem allocate_sameLink (item : WorkItem) (s : State) : SameLink s (allocate item s) := by
  unfold allocate
  split
  · exact ⟨rfl, rfl⟩
  · dsimp only
    split
    · exact beginBand_sameLink ..
    · split
      · exact ⟨rfl, rfl⟩
      · exact (reclaimUntil_sameLink ..).trans (beginBand_sameLink ..)

theorem selectBand_sameLink (s : State) : SameLink s (selectBand s) := by
  unfold selectBand
  split
  · exact allocate_sameLink ..
  · exact ⟨rfl, rfl⟩

theorem selectWork_sameLink (s : State) : SameLink s (selectWork s) := by
  unfold selectWork
  split
  · exact .rfl' s
  · split
    · exact allocate_sameLink ..
    · split
      · exact (compositionStart_sameLink ..).trans (selectBand_sameLink _)
      · exact ⟨rfl, rfl⟩

theorem makeOffer_sameLink (p : Page) (t : TemplateBuffer) (s : State) : SameLink s (makeOffer p t s) := by
  unfold makeOffer
  exact ⟨by simp [notify_chans, modCounters, emit], by simp [notify_waiting, modCounters, emit]⟩

theorem offerRule_sameLink (s : State) : SameLink s (offerRule s) := by
  unfold offerRule
  split
  · split
    · split
      · exact makeOffer_sameLink ..
      · exact .rfl' s
    · exact .rfl' s
  · exact .rfl' s

/-- The offer rule and the selection touch no channel and no entry of the waiting list. -/
theorem pump_sameLink (s : State) : SameLink s (pump s) := (offerRule_sameLink s).trans (selectWork_sameLink _)

/-! ## Rest -/

/-- On a steady part the offer rule and the selection change nothing (R116, R150). -/
theorem pump_steady {s : State} (h : Steady s) : pump s = s := by
  rcases h with ⟨hp, hc⟩ | ⟨⟨item, need, hc⟩, ho⟩
  · have h1 : offerRule s = s := by
      have hn : s.candidate = none := by simp [State.candidate, hp]
      unfold offerRule
      rw [hn]
      split
      · rename_i h; cases h
      · rfl
    have hw : s.bandWork = none := by simp [State.bandWork, hp]
    have hs : s.startable = none := by simp [State.startable, State.gatheringPage, hp]
    rw [pump, h1, selectWork, hc, hw, hs]
    show { s with compositor := .free } = s
    rw [← hc]
  · have h1 : offerRule s = s := by
      unfold offerRule
      split
      · simp_all
      · rfl
    rw [pump, h1]
    simp [selectWork, hc]

theorem tasks_still {s : State} (hw : s.waiting = []) (hp : ∀ ch, s.presents ch = false) : s.tasks = [] := by
  simp [State.tasks, hw, hp]

/-- Where no task remains, what follows ends. -/
theorem settleFor_still (n : Nat) {s : State} (h : s.tasks = []) : settleFor n s = { s with wake := false } := by
  cases n with
  | zero => rfl
  | succ n => simp [settleFor, choose, h]

/-- Where no record waits and no channel presents one, what follows an event is its judging of the store low state and of the
offer and selection conditions (R14, R55, R116, R150). -/
theorem follow_settled {s : State} (hw : s.waiting = []) (hp : ∀ ch, s.presents ch = false) : follow s = s.settled 0 := by
  have k : SameLink s (pump (judgeStore 0 s)) := (judgeStore_sameLink 0 s).trans (pump_sameLink _)
  rw [follow, settle, settleFor_still]
  · rfl
  · exact tasks_still (k.2.trans hw) fun ch => (k.presents ch).trans (hp ch)

/-! ## A quiet channel -/

/-- A change of a channel that changes nothing. -/
theorem modChan_same {ch : Chan} {f : Channel → Channel} {s : State} (h : f s.chans[ch] = s.chans[ch]) :
    modChan ch f s = s := by
  unfold modChan
  rw [h]
  have : s.chans.set ch s.chans[ch] = s.chans := by simp
  rw [this]

@[simp] theorem holding_waiting (ch : Chan) (b : List Byte) (s : State) : (s.holding ch b).waiting = s.waiting := rfl

@[simp] theorem holding_self (ch : Chan) (b : List Byte) (s : State) :
    (s.holding ch b).chans[ch] = { s.chans[ch] with buffer := b } := by simp [State.holding]

theorem holding_other {ch c : Chan} (b : List Byte) (s : State) (h : c ≠ ch) : (s.holding ch b).chans[c] = s.chans[c] :=
  modChan_other _ s h

theorem holding_nil {ch : Chan} {s : State} (h : s.chans[ch].buffer = []) : s.holding ch [] = s := by
  apply modChan_same
  rw [← h]

theorem recLength_append {a : List Byte} (c : List Byte) (h : 4 ≤ a.length) : recLength (a ++ c) = recLength a := by
  simp only [recLength, field]
  rw [List.drop_append_of_le_length (by omega), List.take_append_of_le_length (by simp; omega)]

/-- A record of a legal length that says its length (R6). -/
structure IsRecord (b : List Byte) : Prop where
  low : Config.minRecord ≤ b.length
  high : b.length ≤ Config.maxRecord
  counts : recLength b = b.length

theorem IsRecord.legal {b : List Byte} (h : IsRecord b) : badLength b.length = false := by
  have := h.low; have := h.high
  simp [badLength]; omega

/-- The part of a record that has arrived presents nothing (R6). -/
theorem partial_frontLength {a c : List Byte} (h : IsRecord (a ++ c)) (hc : c ≠ []) (k : Channel) :
    ∀ len, ({ k with buffer := a } : Channel).frontLength = some len → badLength len = false ∧ a.length < len := by
  intro len hl
  unfold Channel.frontLength at hl
  split at hl
  · rename_i h4
    have e := recLength_append c h4
    cases hl
    have hs := h.counts
    rw [e] at hs
    have : 0 < c.length := List.length_pos_iff.mpr hc
    refine ⟨?_, ?_⟩
    · rw [show recLength ({ k with buffer := a } : Channel).buffer = (a ++ c).length from hs]; exact h.legal
    · rw [show recLength ({ k with buffer := a } : Channel).buffer = (a ++ c).length from hs]
      simp; omega
  · cases hl

theorem holding_presents_other {ch c : Chan} {s : State} (b : List Byte) (hq : Listening ch s) (hc : c ≠ ch) :
    (s.holding ch b).presents c = false := by
  have := hq.still c
  simpa only [State.presents, State.stalled, State.waitOf, holding_other b s hc, holding_waiting] using this

theorem holding_level {ch : Chan} {s : State} {a : List Byte} (hq : Listening ch s) (ha : a.length ≤ Config.maxRecord) :
    ({ s.chans[ch] with buffer := a } : Channel).readyLevel = true := by
  have := hq.mark
  simp only [Config.watermarkMax, Config.maxRecord] at *
  show decide (s.chans[ch].watermark ≤ 16384 - a.length) = true
  rw [decide_eq_true_eq]
  omega

/-- A frame that fits an ACTIVE channel is appended, and the ready indication is re-evaluated (R1, R2). -/
theorem frameArrives_fits {ch : Chan} {sync : Bool} {p : List Byte} {s : State} (ha : s.chans[ch].mode = .active)
    (hp : p.length ≤ s.chans[ch].space) :
    frameArrives ch sync p s = evalReady ch (modChan ch (fun c => { c with buffer := c.buffer ++ p }) s) := by
  unfold frameArrives
  rw [ha]
  exact if_pos hp

/-- A ready indication that stands at its level is left. -/
theorem evalReady_same {ch : Chan} {s : State} (h : s.chans[ch].ready = s.chans[ch].readyLevel) : evalReady ch s = s :=
  if_pos h

theorem holding_append (ch : Chan) (a p : List Byte) (s : State) :
    modChan ch (fun c => { c with buffer := c.buffer ++ p }) (s.holding ch a) = s.holding ch (a ++ p) := by
  simp [modChan, State.holding]

theorem holding_frame {ch : Chan} {s : State} (hq : Listening ch s) {a p : List Byte} (h : (a ++ p).length ≤ Config.maxRecord) :
    frameArrives ch false p (s.holding ch a) = s.holding ch (a ++ p) := by
  have hs : p.length ≤ (s.holding ch a).chans[ch].space := by
    rw [holding_self]
    show p.length ≤ 16384 - a.length
    simp only [Config.maxRecord, List.length_append] at h
    omega
  rw [frameArrives_fits (by rw [holding_self]; exact hq.active) hs, holding_append]
  apply evalReady_same
  rw [holding_self, holding_level hq h]
  exact hq.ready

/-- While the frames of a record arrive on a listening channel, its buffer fills and nothing else changes (R1, R2, R6). -/
theorem event_partial {ch : Chan} {s : State} (hq : Listening ch s) {a p c : List Byte} (h : IsRecord (a ++ p ++ c)) (hc : c ≠ []) :
    event (frameArrives ch false p) (s.holding ch a) = s.holding ch (a ++ p) := by
  have hlen : (a ++ p).length ≤ Config.maxRecord := by
    have := h.high; simp at *; omega
  have hf := holding_frame hq hlen
  have hj : judgeStore 0 (s.holding ch (a ++ p)) = s.holding ch (a ++ p) := judgeStore_judged 0 hq.judged
  have hp : pump (s.holding ch (a ++ p)) = s.holding ch (a ++ p) := pump_steady hq.steady
  have hs : ∀ k, (s.holding ch (a ++ p)).presents k = false := by
    intro k
    by_cases hk : k = ch
    · subst hk
      simp only [State.presents, holding_self]
      have := partial_frontLength h hc s.chans[k]
      cases hl : ({ s.chans[k] with buffer := a ++ p } : Channel).frontLength with
      | none => simp
      | some len =>
        obtain ⟨h1, h2⟩ := this len hl
        simp [h1]; intro _ _; simpa using h2
    · exact holding_presents_other _ hq hk
  rw [event, hf, follow, hj, hp, settle, settleFor_still _ (tasks_still (s := s.holding ch (a ++ p)) hq.noWaiters hs)]
  show { s.holding ch (a ++ p) with wake := false } = s.holding ch (a ++ p)
  have hw : (s.holding ch (a ++ p)).wake = false := hq.noWake
  rw [← hw]

/-- The last frame of a record on a listening channel: the record is presented, and what follows ends there where nothing more can
come about (R6, R9, R10). -/
theorem event_whole {ch : Chan} {s : State} (hq : Listening ch s) {a p : List Byte} (h : IsRecord (a ++ p))
    (hr : (pump (presentRecord ch (a ++ p) (s.holding ch (a ++ p)))).tasks = []) :
    event (frameArrives ch false p) (s.holding ch a) =
      (pump (presentRecord ch (a ++ p) (s.holding ch (a ++ p)))).rested := by
  have hlen := h.high
  have hf := holding_frame hq hlen
  have hj : judgeStore 0 (s.holding ch (a ++ p)) = s.holding ch (a ++ p) := judgeStore_judged 0 hq.judged
  have hp : pump (s.holding ch (a ++ p)) = s.holding ch (a ++ p) := pump_steady hq.steady
  have h4 : 4 ≤ (a ++ p).length := Nat.le_trans (by decide) h.low
  have hl : (s.holding ch (a ++ p)).chans[ch].frontLength = some (a ++ p).length := by
    rw [holding_self]
    unfold Channel.frontLength
    rw [if_pos h4, ← h.counts]
  have hs : ∀ k, (s.holding ch (a ++ p)).presents k = decide (k = ch) := by
    intro k
    by_cases hk : k = ch
    · subst hk
      have h1 : (s.holding k (a ++ p)).stalled k = false := by
        rw [State.stalled, State.waitOf, holding_waiting, hq.noWaiters]; rfl
      have h2 : (s.holding k (a ++ p)).chans[k].mode = .active := by rw [holding_self]; exact hq.active
      have h3 : (s.holding k (a ++ p)).chans[k].buffer.length = (a ++ p).length := by rw [holding_self]
      simp only [State.presents, hl, h1, h2, h3]
      simp
    · rw [holding_presents_other _ hq hk]; simp [hk]
  have hw : (s.holding ch (a ++ p)).waiting = [] := hq.noWaiters
  have ht : (s.holding ch (a ++ p)).tasks = [.dispatch ch] := by
    have : ∀ c : Chan, (List.finRange 4).filter (fun k => decide (k = c)) = [c] := by decide
    have hf : (s.holding ch (a ++ p)).presents = fun k => decide (k = ch) := funext hs
    rw [State.tasks, hw, hf, this]
    simp
  have hd : dispatchFront ch (s.holding ch (a ++ p)) = presentRecord ch (a ++ p) (s.holding ch (a ++ p)) := by
    have hfr : (s.holding ch (a ++ p)).chans[ch].front = a ++ p := by
      rw [holding_self]
      show (a ++ p).take (recLength (a ++ p)) = a ++ p
      rw [h.counts, List.take_length]
    rw [dispatchFront, hl]
    simp only [h.legal, hfr]
    rfl
  rw [event, hf, follow, hj, hp, settle, settleFor, ht]
  simp only [choose, runTask, hd]
  exact settleFor_still _ hr

theorem deliver_from {ch : Chan} {s : State} (hq : Listening ch s) (n : Nat) (a c : List Byte) (hn : c.length ≤ n) (hc : c ≠ [])
    (h : IsRecord (a ++ c)) (hr : (pump (presentRecord ch (a ++ c) (s.holding ch (a ++ c)))).tasks = []) :
    (pieces n c).foldl (fun s p => event (frameArrives ch false p) s) (s.holding ch a) =
      (pump (presentRecord ch (a ++ c) (s.holding ch (a ++ c)))).rested := by
  induction n generalizing a c with
  | zero => exact absurd (List.length_eq_zero_iff.mp (Nat.le_zero.mp hn)) hc
  | succ n ih =>
    have hp : pieces (n + 1) c = c.take Config.maxPayload :: pieces n (c.drop Config.maxPayload) := by
      cases c with
      | nil => exact absurd rfl hc
      | cons x xs => rfl
    have hsplit : c.take Config.maxPayload ++ c.drop Config.maxPayload = c := List.take_append_drop _ _
    rw [hp, List.foldl_cons]
    by_cases hd : c.drop Config.maxPayload = []
    · have hw : c.take Config.maxPayload = c := by simpa [hd] using hsplit
      rw [hd, hw]
      have hn' : pieces n ([] : List Byte) = [] := by cases n <;> rfl
      rw [hn']
      exact event_whole hq h hr
    · have hs' : a ++ c.take Config.maxPayload ++ c.drop Config.maxPayload = a ++ c := by rw [List.append_assoc, hsplit]
      rw [event_partial hq (c := c.drop Config.maxPayload) (by rw [hs']; exact h) hd]
      have := ih (a ++ c.take Config.maxPayload) (c.drop Config.maxPayload)
        (by rw [List.length_drop]; simp only [Config.maxPayload]; omega) hd (by rw [hs']; exact h)
        (by rw [hs']; exact hr)
      rw [hs'] at this
      exact this

/-- A record delivered on a listening channel is presented by itself (R6, R9, R10, log entry 3). -/
theorem deliver_quiet {ch : Chan} {s : State} (hq : Listening ch s) {b : List Byte} (h : IsRecord b)
    (hr : (pump (presentRecord ch b (s.holding ch b))).tasks = []) :
    deliver ch b s = (pump (presentRecord ch b (s.holding ch b))).rested := by
  have hb : b ≠ [] := by
    intro e; have := h.low; simp [e] at this
  have := deliver_from hq b.length [] b (Nat.le_refl _) hb (by simpa using h) (by simpa using hr)
  rw [holding_nil hq.empty] at this
  simpa [deliver] using this

/-! ## Changes of a channel commute with what the notice unit does -/

theorem pickReleasable_congr {s t : State} (hg : t.gates = s.gates) (hn : t.now = s.now) (seen : List NoticeClass)
    (q : List Held) : t.pickReleasable seen q = s.pickReleasable seen q := by
  induction q generalizing seen with
  | nil => rfl
  | cons h rest ih =>
    have : ∀ c, t.gateOpen c = s.gateOpen c := fun c => by simp only [State.gateOpen, hg, hn]
    simp only [State.pickReleasable, this, ih]

theorem releaseRule_modChan (ch : Chan) (f : Channel → Channel) (s : State) :
    releaseRule (modChan ch f s) = modChan ch f (releaseRule s) := by
  have hp : ∀ q, (modChan ch f s).pickReleasable [] q = s.pickReleasable [] q :=
    pickReleasable_congr (s := s) (t := modChan ch f s) rfl rfl []
  have hq : (modChan ch f s).returnQueue = s.returnQueue := rfl
  have hc : (modChan ch f s).returnChannel = s.returnChannel := rfl
  unfold releaseRule
  rw [hc, hq, hp]
  cases s.returnChannel with
  | some t => rfl
  | none =>
    cases s.pickReleasable [] s.returnQueue with
    | none => rfl
    | some x => rfl

theorem post_modChan (n : Notice) (ch : Chan) (f : Channel → Channel) (s : State) :
    post n (modChan ch f s) = modChan ch f (post n s) := by
  have hn : (modChan ch f s).noticesHeld = s.noticesHeld := rfl
  have hq : (modChan ch f s).returnQueue = s.returnQueue := rfl
  unfold post
  rw [hn, hq]
  split
  · exact releaseRule_modChan ch f { s with returnQueue := s.returnQueue ++ [{ item := .notice n, flushed := false }] }
  · exact releaseRule_modChan ch f (setOverrun n.code.cls s)

theorem notify_modChan (code : NoticeCode) (tag subject : Nat) (detail : List Item) (ch : Chan) (f : Channel → Channel)
    (s : State) : notify code tag subject detail (modChan ch f s) = modChan ch f (notify code tag subject detail s) :=
  post_modChan _ ch f s

theorem storeReply_modChan (r : Reply) (ch : Chan) (f : Channel → Channel) (s : State) :
    storeReply r (modChan ch f s) = modChan ch f (storeReply r s) := by
  have hq : (modChan ch f s).returnQueue = s.returnQueue := rfl
  unfold storeReply
  rw [hq]
  split
  · exact releaseRule_modChan ch f { s with returnQueue := s.returnQueue ++ [{ item := .reply r, flushed := false }] }
  · exact releaseRule_modChan ch f (setOverrun .reply s)

theorem modChan_modChan (ch : Chan) (f g : Channel → Channel) (s : State) :
    modChan ch f (modChan ch g s) = modChan ch (fun c => f (g c)) s := by
  simp [modChan]

theorem modChan_congr {ch : Chan} {f g : Channel → Channel} {s : State} (h : f s.chans[ch] = g s.chans[ch]) :
    modChan ch f s = modChan ch g s := by
  unfold modChan; rw [h]

/-! ## Verdicts on a quiet channel (R9, R13) -/

/-- A quiet channel's record that passes the decoder's checks and breaks no open portrait is judged by its owner as it
stands. -/
theorem presentRecord_ok {ch : Chan} {s : State} (hn : ∀ key, s.chans[ch].binding ≠ .skipping key) {b : List Byte}
    {kind : RecordKind} (hk : decoderCheck b = .ok kind) :
    presentRecord ch b s = conclude ch b (judgeOwner ch kind b (breakOpen ch kind b s)) (breakOpen ch kind b s) := by
  have h1 : s.skips ch b = false := by
    unfold State.skips
    split
    · rename_i k h; exact absurd h (hn k)
    · rfl
  have h2 : endSkip ch b s = s := by
    unfold endSkip
    split
    · rename_i k h; exact absurd h (hn k)
    · rfl
  simp only [presentRecord, hk, h1, h2]
  rfl

/-- A record, not a HEAD, that fails the decoder's checks is refused with their reason (R8). -/
theorem presentRecord_error {ch : Chan} {s : State} (hn : ∀ key, s.chans[ch].binding ≠ .skipping key) {b : List Byte}
    {reason : Reason} (hk : decoderCheck b = .error reason) (hh : recKind b ≠ some .portraitHead) :
    presentRecord ch b s = conclude ch b (.refused reason []) s := by
  have h3 : breakByRefused ch b s = s := by
    unfold breakByRefused
    split
    · rename_i h _; exact absurd h hh
    · rfl
  have h2 : endSkip ch b s = s := by
    unfold endSkip
    split
    · rename_i k h; exact absurd h (hn k)
    · rfl
  simp only [presentRecord, hk, h2, h3]

/-- The kinds that never break an open portrait. -/
def RecordKind.plain : RecordKind → Bool
  | .portraitHead | .portraitStrip | .portraitEnd => false
  | .jobOpen | .jobClose | .roster | .template | .font | .glyph | .page | .pageCancel | .set | .query | .flagsClear
  | .noticeFlush | .channelReset | .clear => true

theorem breakOpen_plain {kind : RecordKind} (h : kind.plain = true) (ch : Chan) (b : List Byte) (s : State) :
    breakOpen ch kind b s = s := by
  cases kind <;> first | rfl | cases h

theorem breakOpen_closed {ch : Chan} {s : State} (h : ∀ k n, s.chans[ch].binding ≠ .opened k n) (kind : RecordKind)
    (b : List Byte) : breakOpen ch kind b s = s := by
  have hk : ∀ found, breakByKey ch found b s = s := fun found => by
    unfold breakByKey
    split
    · rename_i k n hb; exact absurd hb (h k n)
    · rfl
  unfold breakOpen
  split
  · unfold endOpenPortrait
    split
    · rename_i k n hb; exact absurd hb (h k n)
    · rfl
  · exact hk _
  · exact hk _
  · rfl

theorem unwait_none {ch : Chan} {s : State} (h : s.waiting = []) : unwait ch s = s := by
  have : s.waiting.filter (·.ch ≠ ch) = s.waiting := by rw [h]; rfl
  unfold unwait
  rw [this]

/-- The record leaves the buffer of a channel that it fills, and the ready indication stands. -/
theorem dropFront_whole {ch : Chan} {s t : State} (hq : Listening ch s) {b : List Byte} {f : Channel → Channel}
    (ht : t.chans[ch] = s.chans[ch]) (hb : ∀ c : Channel, (f c).buffer = c.buffer ∧ (f c).ready = c.ready ∧
      (f c).watermark = c.watermark ∧ ∀ l, f { c with buffer := l } = { f c with buffer := l }) :
    dropFront ch b.length (modChan ch f (t.holding ch b)) = modChan ch f t := by
  have h1 : modChan ch (fun c => { c with buffer := c.buffer.drop b.length }) (modChan ch f (t.holding ch b)) =
      modChan ch f t := by
    rw [State.holding, modChan_modChan, modChan_modChan]
    apply modChan_congr
    have h2 := (hb { t.chans[ch] with buffer := b }).1
    have h3 := (hb t.chans[ch]).2.2.2 b
    have h4 := (hb t.chans[ch]).1
    have h5 : t.chans[ch].buffer = [] := by rw [ht]; exact hq.empty
    simp only [h3, List.drop_length]
    rw [← h5, ← h4]
  rw [dropFront, h1]
  apply evalReady_same
  rw [modChan_self, ht]
  obtain ⟨e1, e2, e3, -⟩ := hb s.chans[ch]
  rw [e2, hq.ready]
  have := hq.mark
  have e : (f s.chans[ch]).buffer.length = 0 := by rw [e1, hq.empty]; rfl
  simp only [Channel.readyLevel, Channel.space, e, e3, Config.bufferSize, Config.watermarkMax] at *
  symm
  rw [decide_eq_true_eq]
  omega

theorem short_presents {s : State} {ch : Chan} (h : s.chans[ch].buffer.length < 4) : s.presents ch = false := by
  have : s.chans[ch].frontLength = none := by
    unfold Channel.frontLength; exact if_neg (by omega)
  simp only [State.presents, this]
  simp

/-- Where the other channel's mode and buffer stand, so does what it presents. -/
theorem presents_same {s t : State} {c : Chan} (hm : t.chans[c].mode = s.chans[c].mode)
    (hb : t.chans[c].buffer = s.chans[c].buffer) (hw : t.waiting = s.waiting) : t.presents c = s.presents c := by
  simp only [State.presents, State.stalled, State.waitOf, Channel.frontLength, hm, hb, hw]

/-- A record on a listening channel whose disposal leaves `u`, with nothing waiting and nothing presented (R9, R55). -/
theorem deliver_concluded {ch : Chan} {s u : State} (hq : Listening ch s) {b : List Byte} (h : IsRecord b)
    (hp : presentRecord ch b (s.holding ch b) = judgeStore (recTag b) u) (hw : u.waiting = [])
    (ho : ∀ c, u.presents c = false) : deliver ch b s = u.settled (recTag b) := by
  have k : SameLink u (pump (judgeStore (recTag b) u)) := (judgeStore_sameLink (recTag b) u).trans (pump_sameLink _)
  rw [deliver_quiet hq h, hp, State.settled]
  rw [hp]
  exact tasks_still (k.2.trans hw) fun c => (k.presents c).trans (ho c)

/-- A record taken on a quiet channel: its effect on the state `u` is the whole of what happens beside the counting of the
record, the store low state and what the compositor and the head port begin (R9, R55). -/
theorem deliver_taken {ch : Chan} {s u : State} (hq : Quiet ch s) {b : List Byte} (h : IsRecord b) {kind : RecordKind}
    (hk : decoderCheck b = .ok kind) (hb : breakOpen ch kind b (s.holding ch b) = s.holding ch b)
    (hj : judgeOwner ch kind b (s.holding ch b) = .taken (u.holding ch b)) (hc : u.chans = s.chans)
    (hw : u.waiting = []) : deliver ch b s = (u.counted ch).settled (recTag b) := by
  have hn : ∀ key, (s.holding ch b).chans[ch].binding ≠ .skipping key := by
    intro key; rw [holding_self]; exact hq.noSkip key
  have hd : dropFront ch b.length (modChan ch (fun c => { c with taken := bump c.taken }) (u.holding ch b)) = u.counted ch :=
    dropFront_whole hq.toListening (by rw [hc]) fun c => ⟨rfl, rfl, rfl, fun _ => rfl⟩
  have hp : presentRecord ch b (s.holding ch b) = judgeStore (recTag b) (u.counted ch) := by
    have hu : unwait ch (u.holding ch b) = u.holding ch b := unwait_none hw
    rw [presentRecord_ok hn hk, hb, hj, conclude]
    simp only [hu, hd]
  refine deliver_concluded hq.toListening h hp hw fun c => ?_
  by_cases hcc : c = ch
  · subst hcc
    apply short_presents
    rw [State.counted, modChan_self, hc]
    show s.chans[c].buffer.length < 4
    rw [hq.empty]; decide
  · rw [← hq.still c]
    have e : (u.counted ch).chans[c] = s.chans[c] := by rw [State.counted, modChan_other _ _ hcc, hc]
    exact presents_same (by rw [e]) (by rw [e]) (hw.trans hq.noWaiters.symm)

/-- A record refused on a quiet channel, other than a PORTRAIT HEAD: it is counted, and REFUSED is posted (R9). -/
theorem deliver_refused {ch : Chan} {s : State} (hq : Quiet ch s) {b : List Byte} (h : IsRecord b)
    (hh : recKind b ≠ some .portraitHead) {reason : Reason} {extra : List Item}
    (hp : presentRecord ch b (s.holding ch b) = conclude ch b (.refused reason extra) (s.holding ch b)) :
    deliver ch b s = (s.refusedOn ch (recTag b) (recSubject b) (recKindCode b) reason extra).settled (recTag b) := by
  have hu : unwait ch (s.holding ch b) = s.holding ch b := unwait_none hq.noWaiters
  have hs : ∀ t : State, skipRefusedHead ch b t = t := by
    intro t
    unfold skipRefusedHead
    split <;> first | rfl | (rename_i e _; exact absurd e hh)
  have hp' : presentRecord ch b (s.holding ch b) =
      judgeStore (recTag b) (s.refusedOn ch (recTag b) (recSubject b) (recKindCode b) reason extra) := by
    rw [hp, conclude]
    simp only [hu, hs]
    have e : ∀ code tag subj det, notify code tag subj det (s.holding ch b) = (notify code tag subj det s).holding ch b :=
      fun code tag subj det => notify_modChan code tag subj det ch _ s
    rw [notify_modChan, e, State.refusedOn, notify_modChan]
    congr 1
    exact dropFront_whole (f := fun c => { c with refused := bump c.refused }) hq.toListening (by rw [notify_chans])
      fun c => ⟨rfl, rfl, rfl, fun _ => rfl⟩
  have hw : (s.refusedOn ch (recTag b) (recSubject b) (recKindCode b) reason extra).waiting = s.waiting := by
    simp only [State.refusedOn, notify_waiting]; rfl
  refine deliver_concluded hq.toListening h hp' (hw.trans hq.noWaiters) fun c => ?_
  by_cases hcc : c = ch
  · subst hcc
    apply short_presents
    simp only [State.refusedOn, notify_chans]
    rw [modChan_self]
    show s.chans[c].buffer.length < 4
    rw [hq.empty]; decide
  · rw [← hq.still c]
    have e : (s.refusedOn ch (recTag b) (recSubject b) (recKindCode b) reason extra).chans[c] = s.chans[c] := by
      simp only [State.refusedOn, notify_chans]
      exact modChan_other _ _ hcc
    exact presents_same (by rw [e]) (by rw [e]) hw

/-- A record deferred on a quiet channel waits, and nothing else changes (R9, R13). -/
theorem deliver_deferred {ch : Chan} {s : State} (hq : Quiet ch s) {b : List Byte} (h : IsRecord b) {kind : Resource}
    (hp : presentRecord ch b (s.holding ch b) = conclude ch b (.deferred kind) (s.holding ch b)) :
    deliver ch b s = s.deferredOn ch b kind := by
  have hst : (s.holding ch b).stalled ch = false := by
    rw [State.stalled, State.waitOf, holding_waiting, hq.noWaiters]; rfl
  have hd : deferRecord ch kind (s.holding ch b) = s.deferredOn ch b kind := by
    rw [deferRecord, hst]
    simp [State.deferredOn, State.holding, modChan]
  have hj : judgeStore (recTag b) (s.deferredOn ch b kind) = s.deferredOn ch b kind := judgeStore_judged _ hq.judged
  have hs : pump (s.deferredOn ch b kind) = s.deferredOn ch b kind := pump_steady hq.steady
  have hp' : presentRecord ch b (s.holding ch b) = s.deferredOn ch b kind := by
    rw [hp, conclude]
    simp only [hd, hj]
  have hwk : (s.deferredOn ch b kind).wake = false := hq.noWake
  have ht : (s.deferredOn ch b kind).tasks = [] := by
    have hpr : ∀ c, (s.deferredOn ch b kind).presents c = false := by
      intro c
      by_cases hc : c = ch
      · subst hc
        have : (s.deferredOn c b kind).stalled c = true := by
          simp [State.stalled, State.waitOf, State.deferredOn]
        simp only [State.presents, this]
        simp
      · have h0 := hq.still c
        have h1 : (s.deferredOn ch b kind).chans[c] = s.chans[c] :=
          modChan_other (fun c => { c with buffer := b, stalls := bump c.stalls }) s hc
        have h2 : (s.deferredOn ch b kind).stalled c = s.stalled c := by
          simp [State.stalled, State.waitOf, State.deferredOn, hq.noWaiters, Ne.symm hc]
        simpa only [State.presents, h1, h2] using h0
    have : (s.deferredOn ch b kind).presents = fun _ => false := funext hpr
    simp [State.tasks, hwk, this]
  rw [deliver_quiet hq.toListening h, hp', hs, State.rested]
  · rw [← hwk]
  · rw [hp', hs]; exact ht

/-- Where the store low state is judged and the part is steady, settling is rest. -/
theorem settled_rested {s : State} (tag : Nat) (hj : StoreJudged s) (hs : Steady s) : s.settled tag = s.rested := by
  rw [State.settled, judgeStore_judged tag hj, pump_steady hs]

/-- Posting a notice leaves what makes a part steady. -/
theorem steady_of {s t : State} (hs : Steady s) (hp : t.pages = s.pages) (hc : t.compositor = s.compositor)
    (ho : t.offer = s.offer) : Steady t := by
  unfold Steady at *; rw [hp, hc, ho]; exact hs

theorem storeJudged_of {s t : State} (hs : StoreJudged s) (hf : t.freeBlocks = s.freeBlocks) (hl : t.storeLow = s.storeLow)
    (hm : t.lowMark = s.lowMark) : StoreJudged t := by
  unfold StoreJudged State.freeCount at *; rw [hf, hl, hm]; exact hs

/-! ## Record commands on a quiet channel -/

theorem listening_cleared {ch : Chan} {s : State} (h : Listening ch s) : Listening ch s.cleared :=
  ⟨⟨h.up, h.noWaiters, h.noWake, h.still, h.judged, h.steady⟩, h.active, h.empty, h.ready, h.mark⟩

theorem quiet_cleared {ch : Chan} {s : State} (h : Quiet ch s) : Quiet ch s.cleared :=
  ⟨listening_cleared h.toListening, h.noSkip⟩

theorem whenUp_up {s : State} (h : s.inReset = false) (f : State → State) : whenUp f s = f s.cleared := by
  simp [whenUp, h, State.cleared]

theorem olderWaiter_none {ch : Chan} {s : State} (hw : s.waiting = []) (k : Resource) : s.olderWaiter ch k = false := by
  simp [State.olderWaiter, hw]

/-- The record of a well-formed record command is whole, and the decoder's checks answer with the command's kind (R6, R8). -/
theorem wireRecord_checked {c : Instr} {ch : Chan} {b : List Byte} (h : Sys2Proof.Laws.WireForm.Statement c)
    (hw : c.wf = true) (hb : c.wireRecord = some (ch, b)) : IsRecord b ∧ decoderCheck b = Sys2Proof.Laws.checked c :=
  ⟨⟨(h hw ch b hb).1, (h hw ch b hb).2.1, (h hw ch b hb).2.2.1⟩, (h hw ch b hb).2.2.2⟩

theorem refusedOn_rested {ch : Chan} {s : State} (hq : Quiet ch s) (tag' tag subject kind : Nat) (reason : Reason)
    (extra : List Item) :
    (s.refusedOn ch tag subject kind reason extra).settled tag' = (s.refusedOn ch tag subject kind reason extra).rested := by
  apply settled_rested
  · exact storeJudged_of hq.judged (by simp [State.refusedOn, modChan]) (by simp [State.refusedOn, modChan])
      (by simp [State.refusedOn, modChan])
  · exact steady_of hq.steady (by simp [State.refusedOn, modChan]) (by simp [State.refusedOn, modChan])
      (by simp [State.refusedOn, modChan])

/-- A record of a kind that breaks no portrait, refused by its owner. -/
theorem owner_refused {ch : Chan} {s : State} (hq : Quiet ch s) {b : List Byte} (h : IsRecord b) {kind : RecordKind}
    (hk : decoderCheck b = .ok kind) (hp : kind.plain = true) (hr : recKind b = some kind) {reason : Reason}
    {extra : List Item} (hj : judgeOwner ch kind b (s.holding ch b) = .refused reason extra) :
    deliver ch b s = (s.refusedOn ch (recTag b) (recSubject b) (recKindCode b) reason extra).rested := by
  have hn : ∀ key, (s.holding ch b).chans[ch].binding ≠ .skipping key := by
    intro key; rw [holding_self]; exact hq.noSkip key
  rw [deliver_refused hq h (reason := reason) (extra := extra), refusedOn_rested hq]
  · rw [hr]; intro e; cases e; cases hp
  · rw [presentRecord_ok hn hk, breakOpen_plain hp, hj]

/-- A record of a kind that breaks no portrait, deferred by its owner. -/
theorem owner_deferred {ch : Chan} {s : State} (hq : Quiet ch s) {b : List Byte} (h : IsRecord b) {kind : RecordKind}
    (hk : decoderCheck b = .ok kind) (hp : kind.plain = true) {r : Resource}
    (hj : judgeOwner ch kind b (s.holding ch b) = .deferred r) : deliver ch b s = s.deferredOn ch b r := by
  have hn : ∀ key, (s.holding ch b).chans[ch].binding ≠ .skipping key := by
    intro key; rw [holding_self]; exact hq.noSkip key
  rw [deliver_deferred hq h]
  rw [presentRecord_ok hn hk, breakOpen_plain hp, hj]

/-- A record of a kind that breaks no portrait, taken by its owner with no effect on the channels or the waiting list. -/
theorem owner_taken {ch : Chan} {s u : State} (hq : Quiet ch s) {b : List Byte} (h : IsRecord b) {kind : RecordKind}
    (hk : decoderCheck b = .ok kind) (hp : kind.plain = true)
    (hj : judgeOwner ch kind b (s.holding ch b) = .taken (u.holding ch b)) (hc : u.chans = s.chans)
    (hw : u.waiting = s.waiting) : deliver ch b s = (u.counted ch).settled (recTag b) :=
  deliver_taken hq h hk (breakOpen_plain hp ..) hj hc (hw.trans hq.noWaiters)

/-- A taken record that leaves the pool, the page queue, the compositor and the offer slot settles at once. -/
theorem counted_rested {ch : Chan} {s u : State} (tag : Nat) (hq : Quiet ch s) (h1 : u.freeBlocks = s.freeBlocks)
    (h2 : u.storeLow = s.storeLow) (h3 : u.lowMark = s.lowMark) (h4 : u.pages = s.pages)
    (h5 : u.compositor = s.compositor) (h6 : u.offer = s.offer) : (u.counted ch).settled tag = (u.counted ch).rested :=
  settled_rested _ (storeJudged_of hq.judged h1 h2 h3) (steady_of hq.steady h4 h5 h6)

end Sys2Proof.Machine
end

