-- ==== Sys2Proof/Laws/MovesLink.lean ====
section
/-! SUPPORT. The moves that the notice unit, the waiting list, the decoder and a whole step make: every step is a run of moves. -/

namespace Sys2Proof.Machine

variable {lim : Nat}

/-! ## Queries, flags and settings -/

theorem judgeQuery_does (ch : Chan) (b : List Byte) (s : State) : (judgeQuery ch b s).Does lim s := by
  unfold judgeQuery
  dsimp only
  split
  · exact Verdict.does_refused _ _ _
  · split
    · exact Verdict.does_refused _ _ _
    · split
      · exact Verdict.does_deferred _ _
      · exact Verdict.does_taken (storeReply_moves _ _)

theorem judgeFlagsClear_does (b : List Byte) (s : State) : (judgeFlagsClear b s).Does lim s := by
  unfold judgeFlagsClear
  dsimp only
  split
  · exact Verdict.does_refused _ _ _
  · have m := foldl_moves (lim := lim) (clearChannelFlags (field b 8 2)) (fun s ch => modChan_move ch _ s (.flags _ _))
      (List.finRange 4) s
    exact Verdict.does_taken (m.trans (Move.storeState _ _).moves)

theorem judgeFlush_does (s : State) : (judgeFlush s).Does lim s :=
  Verdict.does_taken ((Move.flush (s := s)).moves.trans (releaseRule_moves _))

theorem setWatermark_moves (ch : Chan) (v : Nat) (s : State) (h : Config.watermarkMin ≤ v ∧ v ≤ Config.watermarkMax) :
    Moves lim s (setWatermark ch v s) := modChan_move ch _ s (.watermark v h)

theorem setClassInterval_moves (cls : NoticeClass) (v : Nat) (s : State) (hc : cls ≠ .reply) (h : v ≤ Config.intervalMax) :
    Moves lim s (setClassInterval cls v s) := (Move.gate (s := s) cls _ (.inr ⟨hc, h⟩)).moves

theorem applyParam_moves (code value : Nat) (s : State) : Moves lim s (applyParam code (appliedValue code value) s) := by
  unfold applyParam
  split
  any_goals exact setWatermark_moves _ _ _ (clamp_bounds _ (by decide))
  any_goals exact setClassInterval_moves _ _ _ (by simp) (clamp_bounds _ (by decide)).2
  · exact (Move.stallLimit _ (clamp_bounds _ (by decide))).moves
  · exact (Move.globalTarget _ (clamp_bounds _ (by decide))).moves
  · exact (Move.lead _ (clamp_bounds _ (by decide))).moves
  · exact (Move.lowMark _ (clamp_bounds _ (by decide)).2).moves
  · exact Moves.refl _

theorem applyPairs_moves (pairs : List (Nat × Nat)) (s : State) : Moves lim s (applyPairs pairs s) :=
  foldl_moves _ (fun s p => applyParam_moves p.1 p.2 s) pairs s

/-! ## The waiting list and RESYNC -/

theorem dropWaiting_moves (e : WaitEntry) (b : List Byte) (cause : DropCause) (s : State) :
    Moves lim s (dropWaiting e b cause s) :=
  (((unwait_moves _ _).trans (modChan_move _ _ _ .discarded)).trans (notify_moves _ _ _ _ _)).trans (wakeUp_moves _)

theorem dropWaiting_buffer (e : WaitEntry) (b : List Byte) (cause : DropCause) (s : State) :
    (dropWaiting e b cause s).chans[e.ch].buffer = s.chans[e.ch].buffer := by
  unfold dropWaiting
  simp only [wakeUp_chans, notify_chans]
  rw [modChan_self]
  rfl

theorem front_nonempty {c : Channel} (h : c.front ≠ []) : c.buffer ≠ [] := by
  rintro e
  exact h (by simp [Channel.front, e])

theorem recKey?_nonempty {b : List Byte} {key : Nat} (h : recKey? b = some key) : b ≠ [] := by
  rintro rfl
  cases h

theorem discardWaiting_moves (cause : DropCause) (s : State) (e : WaitEntry) : Moves lim s (discardWaiting cause s e) := by
  unfold discardWaiting
  dsimp only
  have m := dropWaiting_moves (lim := lim) e s.chans[e.ch].front cause s
  refine Relation.ReflTransGen.trans ?_ (dropFront_moves _ _ _)
  split
  · rename_i key hk
    refine m.trans (setBinding_moves _ _ _ (.inr ?_))
    rw [dropWaiting_buffer]
    exact front_nonempty (recKey?_nonempty hk)
  · exact m

theorem loseStream_moves (ch : Chan) (tag : Nat) (s : State) : Moves lim s (loseStream ch tag s) := by
  unfold loseStream
  dsimp only
  refine Relation.ReflTransGen.trans ?_ (evalReady_moves _ _)
  have m := (abandonOpen_moves (lim := lim) ch tag (fun _ => .unbound) s).trans (modChan_move ch
    (fun c => { c with buffer := [], mode := .resync, binding := .unbound, resetTag := tag }) _ (.lose tag))
  split
  · exact m.trans (dropWaiting_moves _ _ _ _)
  · exact m

theorem enterResync_moves (ch : Chan) (tag : Nat) (s : State) : Moves lim s (enterResync ch tag s) := by
  unfold enterResync
  split
  · rename_i h
    exact modChan_move ch _ s (.retag tag h)
  · exact loseStream_moves _ _ _

theorem judgeChannelReset_does (b : List Byte) (s : State) : (judgeChannelReset b s).Does lim s := by
  unfold judgeChannelReset
  dsimp only
  split
  · exact Verdict.does_taken (enterResync_moves _ _ _)
  · exact Verdict.does_refused _ _ _

theorem discardDue_moves (s : State) : Moves lim s (discardDue s) := foldl_moves _ (discardWaiting_moves .limit) _ s

theorem ite_moves {s t u : State} {p : Prop} [Decidable p] (ht : Moves lim s t) (hu : Moves lim s u) :
    Moves lim s (if p then t else u) := by
  split
  · exact ht
  · exact hu

theorem settingEffects_moves (old : State) (pairs : List (Nat × Nat)) (tag : Nat) (s : State) :
    Moves lim s (settingEffects old pairs tag s) := by
  unfold settingEffects
  dsimp only
  have m1 := foldl_moves (lim := lim) (fun s ch => evalReady ch s) (fun s ch => evalReady_moves ch s) (List.finRange 4) s
  generalize (List.finRange 4).foldl (fun s ch => evalReady ch s) s = s1 at m1
  have m2 := m1.trans (ite_moves (lim := lim) (p := s1.stallLimit = old.stallLimit) (Moves.refl s1) (discardDue_moves s1))
  generalize (if s1.stallLimit = old.stallLimit then s1 else discardDue s1) = s2 at m2
  have m3 := m2.trans (ite_moves (lim := lim) (p := s2.lead = old.lead) (Moves.refl s2) (pump_moves s2))
  generalize (if s2.lead = old.lead then s2 else pump s2) = s3 at m3
  have m4 := m3.trans (ite_moves (lim := lim) (p := pairs.any (fun p => 8 ≤ p.1 && p.1 ≤ 14) = true) (releaseRule_moves s3)
    (Moves.refl s3))
  generalize (if pairs.any (fun p => 8 ≤ p.1 && p.1 ≤ 14) = true then releaseRule s3 else s3) = s4 at m4
  exact m4.trans (ite_moves (Moves.refl s4) (judgeStore_moves tag s4))

theorem judgeSet_does (b : List Byte) (s : State) : (judgeSet b s).Does lim s := by
  unfold judgeSet
  dsimp only
  split
  · exact Verdict.does_refused _ _ _
  · exact Verdict.does_taken (((applyPairs_moves _ s).trans (settingEffects_moves _ _ _ _)).trans (storeReply_moves _ _))

/-! ## Frames -/

theorem overflowFrame_moves (ch : Chan) (s : State) : Moves lim s (overflowFrame ch s) := by
  unfold overflowFrame
  have h : ChanMoves lim s.chans[ch] { s.chans[ch] with dropped := bump s.chans[ch].dropped, overflow := true } :=
    (Relation.ReflTransGen.single .dropped).tail (.flags true s.chans[ch].framing)
  exact ((modChan_moves ch _ s h).trans (notify_moves _ _ _ _ _)).trans (enterResync_moves _ _ _)

theorem frameArrives_moves (ch : Chan) (sync : Bool) (payload : List Byte) (s : State)
    (h : sync = true → payload.length ≤ lim) : Moves lim s (frameArrives ch sync payload s) := by
  unfold frameArrives
  split
  · rename_i ha
    split
    · rename_i hp
      exact (modChan_move ch _ s (.append payload ha hp)).trans (evalReady_moves _ _)
    · exact overflowFrame_moves _ _
  · split
    · rename_i hs
      exact ((modChan_move ch _ s (.rejoin payload (h hs))).trans (notify_moves _ _ _ _ _)).trans (evalReady_moves _ _)
    · exact modChan_move ch _ s .dropped

theorem framingError_moves (ch : Chan) (len : Nat) (s : State) : Moves lim s (framingError ch len s) :=
  (((modChan_move ch _ s (.flags s.chans[ch].overflow true)).trans (notify_moves _ _ _ _ _)).trans
    (enterResync_moves _ _ _)).trans (judgeStore_moves _ _)

/-! ## The decoder -/

theorem judgeClear_does (b : List Byte) (s : State) : (judgeClear b s).Does lim s := by
  unfold judgeClear
  have m1 := (purgePress_moves (lim := lim) s).trans
    (foldl_moves (fun s ch => abandonOpen ch (recTag b) .skipping s) (fun s ch => abandonOpen_moves ch _ _ s) (List.finRange 4) _)
  have drop : ∀ u : State, Moves lim u (dropAllWaiting u) :=
    fun u => foldl_moves (discardWaiting .clear) (discardWaiting_moves .clear) u.waiting u
  exact Verdict.does_taken (((m1.trans (drop _)).trans Move.emptyTables.moves).trans (wakeUp_moves _))

theorem judgeOwner_does (ch : Chan) (kind : RecordKind) (b : List Byte) (s : State)
    (h : kind = .portraitHead → s.chans[ch].buffer ≠ []) : (judgeOwner ch kind b s).Does lim s := by
  cases kind
  · exact judgeJobOpen_does _ _ _
  · exact judgeJobClose_does _ _
  · exact judgeRoster_does _ _ _
  · exact judgeHead_does _ _ _ (h rfl)
  · exact judgeStrip_does _ _ _
  · exact judgeEnd_does _ _ _
  · exact judgeTemplate_does _ _ _
  · exact judgeFont_does _ _ _
  · exact judgeGlyph_does _ _ _
  · exact judgePage_does _ _ _
  · exact judgePageCancel_does _ _
  · exact judgeSet_does _ _
  · exact judgeQuery_does _ _ _
  · exact judgeFlagsClear_does _ _
  · exact judgeFlush_does _
  · exact judgeChannelReset_does _ _
  · exact judgeClear_does _ _

theorem decoderCheck_nonempty {b : List Byte} {kind : RecordKind} (h : decoderCheck b = .ok kind) : b ≠ [] := by
  rintro rfl
  cases h

theorem judgeRecord_does (ch : Chan) (b : List Byte) (s : State) (h : b ≠ [] → s.chans[ch].buffer ≠ []) :
    (judgeRecord ch b s).Does lim s := by
  unfold judgeRecord
  split
  · exact Verdict.does_refused _ _ _
  · rename_i kind hk
    exact judgeOwner_does _ _ _ _ fun _ => h (decoderCheck_nonempty hk)

theorem skipRefusedHead_moves (ch : Chan) (b : List Byte) (s : State) (h : b ≠ [] → s.chans[ch].buffer ≠ []) :
    Moves lim s (skipRefusedHead ch b s) := by
  unfold skipRefusedHead
  split
  · rename_i key hk
    exact setBinding_moves _ _ _ (.inr (h (recKey?_nonempty hk)))
  · exact Moves.refl _

theorem conclude_moves (ch : Chan) (b : List Byte) (v : Verdict) (s : State) (hv : v.Does lim s)
    (h : b ≠ [] → s.chans[ch].buffer ≠ []) : Moves lim s (conclude ch b v s) := by
  unfold conclude
  refine Relation.ReflTransGen.trans ?_ (judgeStore_moves _ _)
  cases v with
  | taken t =>
    exact (((hv t rfl).trans (unwait_moves _ _)).trans (modChan_move _ _ _ .taken)).trans (dropFront_moves _ _ _)
  | refused reason extra =>
    have m := ((unwait_moves (lim := lim) ch s).trans (modChan_move ch (fun c => { c with refused := bump c.refused }) _
      .refused)).trans
      (notify_moves .refused (recTag b) (recSubject b) ([.two ch, .two (recKindCode b), .two reason.code] ++ extra) _)
    refine (m.trans (skipRefusedHead_moves ch b _ ?_)).trans (dropFront_moves _ _ _)
    intro hb
    rw [notify_chans, modChan_self]
    exact h hb
  | deferred kind => exact deferRecord_moves _ _ _

theorem endSkip_moves (ch : Chan) (b : List Byte) (s : State) : Moves lim s (endSkip ch b s) := by
  unfold endSkip
  split
  · split
    · exact Moves.refl _
    · exact unbind_moves _ _
  · exact Moves.refl _

theorem endSkip_buffer (ch : Chan) (b : List Byte) (s : State) :
    (endSkip ch b s).chans[ch].buffer = s.chans[ch].buffer := by
  unfold endSkip
  split
  · split
    · rfl
    · unfold setBinding; rw [modChan_self]
  · rfl

theorem endOpenPortrait_moves (ch : Chan) (b : List Byte) (s : State) : Moves lim s (endOpenPortrait ch b s) := by
  unfold endOpenPortrait
  split
  · rename_i hb
    exact ((failOpen_moves _ _ _ _ _ _ (hb.trans_ne nofun)).trans (judgeStore_moves _ _)).trans (pump_moves _)
  · exact Moves.refl _

theorem endOpenPortrait_buffer (ch : Chan) (b : List Byte) (s : State) :
    (endOpenPortrait ch b s).chans[ch].buffer = s.chans[ch].buffer := by
  unfold endOpenPortrait
  split
  · rw [(pump_sameLink _).1, judgeStore_chans, failOpen_buffer]
  · rfl

theorem breakByKey_moves (ch : Chan) (found : Nat) (b : List Byte) (s : State) : Moves lim s (breakByKey ch found b s) := by
  unfold breakByKey
  split
  · rename_i hb
    split
    · exact Moves.refl _
    · exact failOpen_moves _ _ _ _ _ _ (hb.trans_ne nofun)
  · exact Moves.refl _

theorem breakByKey_buffer (ch : Chan) (found : Nat) (b : List Byte) (s : State) :
    (breakByKey ch found b s).chans[ch].buffer = s.chans[ch].buffer := by
  unfold breakByKey
  split
  · split
    · rfl
    · exact failOpen_buffer _ _ _ _ _ _
  · rfl

theorem breakOpen_moves (ch : Chan) (kind : RecordKind) (b : List Byte) (s : State) : Moves lim s (breakOpen ch kind b s) := by
  unfold breakOpen
  split
  · exact endOpenPortrait_moves _ _ _
  · exact breakByKey_moves _ _ _ _
  · exact breakByKey_moves _ _ _ _
  · exact Moves.refl _

theorem breakOpen_buffer (ch : Chan) (kind : RecordKind) (b : List Byte) (s : State) :
    (breakOpen ch kind b s).chans[ch].buffer = s.chans[ch].buffer := by
  unfold breakOpen
  split
  · exact endOpenPortrait_buffer _ _ _
  · exact breakByKey_buffer _ _ _ _
  · exact breakByKey_buffer _ _ _ _
  · rfl

theorem breakByRefused_moves (ch : Chan) (b : List Byte) (s : State) : Moves lim s (breakByRefused ch b s) := by
  unfold breakByRefused
  split
  · exact endOpenPortrait_moves _ _ _
  · exact Moves.refl _

theorem breakByRefused_buffer (ch : Chan) (b : List Byte) (s : State) :
    (breakByRefused ch b s).chans[ch].buffer = s.chans[ch].buffer := by
  unfold breakByRefused
  split
  · exact endOpenPortrait_buffer _ _ _
  · rfl

theorem discardSkipped_moves (ch : Chan) (b : List Byte) (s : State) : Moves lim s (discardSkipped ch b s) := by
  unfold discardSkipped
  dsimp only
  have m := (modChan_move (lim := lim) ch (fun c => { c with discarded := bump c.discarded }) s .discarded).trans
    (dropFront_moves ch b.length _)
  split
  · exact m.trans (unbind_moves _ _)
  · exact m

theorem presentRecord_moves (ch : Chan) (b : List Byte) (s : State) (h : b ≠ [] → s.chans[ch].buffer ≠ []) :
    Moves lim s (presentRecord ch b s) := by
  unfold presentRecord
  have he : b ≠ [] → (endSkip ch b s).chans[ch].buffer ≠ [] := fun hb => by rw [endSkip_buffer]; exact h hb
  split
  · have hb : b ≠ [] → (breakByRefused ch b (endSkip ch b s)).chans[ch].buffer ≠ [] := fun hb => by
      rw [breakByRefused_buffer]; exact he hb
    exact ((endSkip_moves ch b s).trans (breakByRefused_moves _ _ _)).trans
      (conclude_moves _ _ _ _ (Verdict.does_refused _ _ _) hb)
  · rename_i kind hk
    split
    · exact discardSkipped_moves _ _ _
    · dsimp only
      have hb : b ≠ [] → (breakOpen ch kind b (endSkip ch b s)).chans[ch].buffer ≠ [] := fun hb => by
        rw [breakOpen_buffer]; exact he hb
      exact ((endSkip_moves ch b s).trans (breakOpen_moves _ _ _ _)).trans (conclude_moves _ _ _ _
        (judgeOwner_does _ _ _ _ fun _ => hb (decoderCheck_nonempty hk)) hb)

theorem dispatchFront_moves (ch : Chan) (s : State) : Moves lim s (dispatchFront ch s) := by
  unfold dispatchFront
  split
  · exact Moves.refl _
  · split
    · exact framingError_moves _ _ _
    · exact presentRecord_moves _ _ _ front_nonempty

/-! ## Examinations and what follows an event -/

theorem examineEntry_moves (acc : List Resource × State) (ch : Chan) : Moves lim acc.2 (examineEntry acc ch).2 := by
  obtain ⟨noted, s⟩ := acc
  unfold examineEntry
  dsimp only
  split
  · exact Moves.refl _
  · split
    · exact Moves.refl _
    · have m := (conclude_moves (lim := lim) ch s.chans[ch].front _ s (judgeRecord_does ch _ s front_nonempty)
        front_nonempty).trans (pump_moves _)
      split
      · exact m
      · exact m

theorem foldl_examineEntry_moves (l : List Chan) (acc : List Resource × State) :
    Moves lim acc.2 (l.foldl examineEntry acc).2 := by
  induction l generalizing acc with
  | nil => exact Moves.refl _
  | cons ch rest ih => exact (examineEntry_moves acc ch).trans (ih _)

theorem noWake_moves (s : State) : Moves lim s { s with wake := false } := book_moves s _ _ _ _ _

theorem examine_moves (s : State) : Moves lim s (examine s) :=
  (noWake_moves s).trans (foldl_examineEntry_moves (s.waiting.map (·.ch)) ([], { s with wake := false }))

theorem runTask_moves (t : Task) (s : State) : Moves lim s (runTask t s) := by
  cases t with
  | examination => exact examine_moves s
  | dispatch ch => exact (dispatchFront_moves ch s).trans (pump_moves _)

theorem settleFor_moves (n : Nat) (s : State) : Moves lim s (settleFor n s) := by
  induction n generalizing s with
  | zero => exact noWake_moves s
  | succ n ih =>
    unfold settleFor
    split
    · exact noWake_moves s
    · rename_i t u h
      exact ((choose_moves _ s h).trans (runTask_moves t u)).trans (ih _)

theorem follow_moves (s : State) : Moves lim s (follow s) :=
  ((judgeStore_moves 0 s).trans (pump_moves _)).trans (settleFor_moves _ _)

theorem event_moves (f : State → State) (s : State) (h : Moves lim s (f s)) : Moves lim s (event f s) :=
  h.trans (follow_moves _)

theorem cleared_moves (s : State) : Moves lim s { s with out := [] } := book_moves s _ _ _ _ _

theorem whenUp_moves (f : State → State) (s : State) (h : ∀ s, Moves lim s (f s)) : Moves lim s (whenUp f s) := by
  unfold whenUp
  split
  · exact cleared_moves s
  · exact (cleared_moves s).trans (h _)

theorem deliver_moves (ch : Chan) (bytes : List Byte) (s : State) : Moves lim s (deliver ch bytes s) :=
  foldl_moves _ (fun s p => event_moves _ s (frameArrives_moves ch false p s nofun)) _ s

/-! ## Ends, expiries and a tick -/

theorem stallExpiry_moves (ch : Chan) (s : State) : Moves lim s (stallExpiry ch s) := by
  unfold stallExpiry
  split
  · exact (advanceTo_moves _ _).trans (discardWaiting_moves _ _ _)
  · exact Moves.refl _

theorem holdEnds_moves (s : State) : Moves lim s (holdEnds s) := by
  unfold holdEnds
  split
  · exact Moves.refl _
  · rename_i p hp
    split
    · exact (advanceTo_moves _ s).trans (setPage_moves (p := p) (List.mem_of_find?_eq_some hp)
        ⟨rfl, rfl, rfl, rfl, .inl rfl, fun h => .inl h⟩)
    · exact Moves.refl _

theorem gateExpires_moves (cls : NoticeClass) (s : State) : Moves lim s (gateExpires cls s) := by
  unfold gateExpires
  split
  · exact (advanceTo_moves _ _).trans (releaseRule_moves _)
  · exact Moves.refl _

theorem transferEnd_moves (s : State) : Moves lim s (transferEnd s) := by
  unfold transferEnd
  split
  · exact ((Move.returnChannel (s := s) none).moves.trans (emit_moves _ _)).trans (releaseRule_moves _)
  · exact Moves.refl _

theorem sendingEnd_moves (s : State) : Moves lim s (sendingEnd s) := by
  unfold sendingEnd
  split
  · exact endSending_moves _ _
  · exact Moves.refl _

theorem compositionComplete_moves (s : State) : Moves lim s (compositionComplete s) := by
  unfold compositionComplete
  split
  · exact completeBand_moves _ _
  · exact Moves.refl _

theorem runDue_moves (d : Due) (s : State) : Moves lim s (runDue d s) := by
  cases d with
  | stall ch => exact event_moves _ s (stallExpiry_moves ch s)
  | hold => exact event_moves _ s (holdEnds_moves s)
  | release => exact event_moves _ s (releaseRule_moves s)

theorem tick_moves (s : State) : Moves lim s (tick s) := by
  unfold tick
  dsimp only
  have m := cleared_moves (lim := lim) s
  have ht : ∀ u : State, Moves lim u { u with now := u.now + 1 } := fun u => book_moves u _ _ _ _ _
  split
  · exact m.trans (ht _)
  · split
    · rename_i d u h
      exact (m.trans (choose_moves _ _ h)).trans (runDue_moves d u)
    · exact m.trans (ht _)

/-! ## A step -/

/-- The payload of a frame command is within the bound. -/
def frameWithin (lim : Nat) : Instr → Prop
  | .linkFrame _ _ payload => payload.length ≤ lim
  | _ => True

/-- Every command is a run of moves. -/
theorem exec_moves (c : Instr) (s t : State) (hc : frameWithin lim c) (h : exec c s = .next t) : Moves lim s t := by
  have up : ∀ {f : State → State} {t : State}, (.next (whenUp f s) : Host.Outcome State Fault Refusal) = .next t →
      (∀ s, Moves lim s (f s)) → Moves lim s t := by
    rintro f t ⟨⟩ hf
    exact whenUp_moves f s hf
  cases c with
  | linkFrame ch sync payload => exact up h fun s => event_moves _ s (frameArrives_moves ch sync payload s fun _ => hc)
  | masterReset => cases h; exact Move.masterReset.moves
  | resetInputHigh =>
    cases h
    unfold leaveReset
    split
    · exact (book_moves s s.order s.now s.wake [] false).trans (sendReady_moves _ _)
    · exact cleared_moves s
  | start id => exact up h fun s => event_moves _ s (pressStart_moves id s)
  | demand => exact up h fun s => event_moves _ s (pressDemand_moves s)
  | done id => exact up h fun s => event_moves _ s (pressDone_moves id s)
  | fault id => exact up h fun s => event_moves _ s (pressFault_moves id s)
  | restart => exact up h fun s => event_moves _ s (pressRestart_moves s)
  | badMessage type id => exact up h fun s => event_moves _ s (headProtocol_moves type id _ s)
  | bandCompositionComplete => exact up h fun s => event_moves _ s (compositionComplete_moves s)
  | bandSendingEnd => exact up h fun s => event_moves _ s (sendingEnd_moves s)
  | returnTransferEnd => exact up h fun s => event_moves _ s (transferEnd_moves s)
  | stallLimitExpiry ch => exact up h fun s => event_moves _ s (stallExpiry_moves ch s)
  | holdExpiry => exact up h fun s => event_moves _ s (holdEnds_moves s)
  | gateExpiry cls => exact up h fun s => event_moves _ s (gateExpires_moves cls s)
  | _ => exact up h fun s => deliver_moves _ _ s

/-- Every step is a run of moves. -/
theorem step_moves (s t : State) (hs : ∀ c ∈ s.pending, frameWithin lim c) (h : step s = .next t) : Moves lim s t := by
  unfold step at h
  split at h
  · cases h; exact tick_moves s
  · rename_i c rest hp
    have m : Moves lim s { s with pending := rest } :=
      (Move.book rest s.order s.now s.wake s.out s.inReset fun x hx => by rw [hp]; exact List.mem_cons_of_mem _ hx).moves
    exact m.trans (exec_moves c _ t (hs c (by rw [hp]; exact List.mem_cons_self)) h)

/-- Well-formed frames carry at most 256 bytes. -/
theorem frameWithin_wf {c : Instr} (h : c.wf = true) : frameWithin Config.maxPayload c := by
  cases c
  case linkFrame ch sync payload =>
    simp only [Instr.wf, Bool.and_eq_true, decide_eq_true_eq] at h
    exact h.2
  all_goals trivial

/-- Some bound holds for every command that is pending. -/
theorem exists_frameWithin (l : List Instr) : ∃ lim, ∀ c ∈ l, frameWithin lim c := by
  induction l with
  | nil => exact ⟨0, nofun⟩
  | cons c rest ih =>
    obtain ⟨n, hn⟩ := ih
    have mono : ∀ {a b : Nat} {c : Instr}, a ≤ b → frameWithin a c → frameWithin b c := by
      intro a b c hab hc
      cases c
      case linkFrame => exact Nat.le_trans hc hab
      all_goals trivial
    have one : ∃ k, frameWithin k c := by
      cases c
      case linkFrame ch sync payload => exact ⟨payload.length, Nat.le_refl _⟩
      all_goals exact ⟨0, trivial⟩
    obtain ⟨k, hk⟩ := one
    refine ⟨max k n, fun x hx => ?_⟩
    rcases List.mem_cons.1 hx with rfl | hx
    · exact mono (Nat.le_max_left _ _) hk
    · exact mono (Nat.le_max_right _ _) (hn x hx)

end Sys2Proof.Machine
end

