-- ==== Sys2Proof/Laws/Store.lean ====
section
/-! SUPPORT. The frame store: every memory operation keeps the canonical form (log entry 6). -/

namespace Sys2Proof.Machine

theorem storeWf_iff (m : List Host.Cell) :
    storeWf m = true ↔ m.Pairwise (fun a b => a.1 < b.1) ∧ ∀ c ∈ m, c.2 ≠ unlistedByte := by
  simp [storeWf, List.all_eq_true]

theorem storeWf_nil : storeWf [] = true := by decide

theorem cellsOf_addresses (bytes : List Byte) (a : Nat) : ∀ c ∈ cellsOf a bytes, a ≤ c.1 ∧ c.1 < a + bytes.length := by
  induction bytes generalizing a with
  | nil => simp [cellsOf]
  | cons b rest ih =>
    intro c hc
    rw [List.length_cons]
    by_cases hb : b = unlistedByte
    · rw [cellsOf, if_pos hb] at hc
      have := ih (a + 1) c hc
      omega
    · rw [cellsOf, if_neg hb, List.mem_cons] at hc
      obtain rfl | hc := hc
      · simp
      · have := ih (a + 1) c hc
        omega

theorem cellsOf_wf (bytes : List Byte) (a : Nat) : storeWf (cellsOf a bytes) = true := by
  induction bytes generalizing a with
  | nil => exact storeWf_nil
  | cons b rest ih =>
    have h := (storeWf_iff _).1 (ih (a + 1))
    by_cases hb : b = unlistedByte
    · rw [cellsOf, if_pos hb]; exact ih (a + 1)
    · rw [cellsOf, if_neg hb, storeWf_iff, List.pairwise_cons]
      refine ⟨⟨fun c hc => ?_, h.1⟩, fun c hc => ?_⟩
      · have := cellsOf_addresses rest (a + 1) c hc
        show a < c.1
        omega
      · obtain rfl | hc := List.mem_cons.1 hc
        · exact hb
        · exact h.2 c hc

/-- A write of bytes keeps the canonical form. -/
theorem writeBytes_wf {m : List Host.Cell} (a : Nat) (bytes : List Byte) (h : storeWf m = true) :
    storeWf (writeBytes m a bytes) = true := by
  obtain ⟨hp, hz⟩ := (storeWf_iff m).1 h
  obtain ⟨cp, cz⟩ := (storeWf_iff _).1 (cellsOf_wf bytes a)
  rw [storeWf_iff, writeBytes, List.pairwise_append, List.pairwise_append]
  refine ⟨⟨⟨hp.filter _, cp, fun x hx y hy => ?_⟩, hp.filter _, fun x hx y hy => ?_⟩, fun c hc => ?_⟩
  · have := cellsOf_addresses bytes a y hy
    have := (List.mem_filter.1 hx).2
    simp only [decide_eq_true_eq] at this
    omega
  · have hy := (List.mem_filter.1 hy).2
    simp only [decide_eq_true_eq] at hy
    obtain hx | hx := List.mem_append.1 hx
    · have hx := (List.mem_filter.1 hx).2
      simp only [decide_eq_true_eq] at hx
      omega
    · have := cellsOf_addresses bytes a x hx
      omega
  · obtain hc | hc := List.mem_append.1 hc
    · obtain hc | hc := List.mem_append.1 hc
      · exact hz c (List.mem_filter.1 hc).1
      · exact cz c hc
    · exact hz c (List.mem_filter.1 hc).1

/-- A write over several areas keeps the canonical form. -/
theorem writePieces_wf (places : List (Nat × Nat)) (bytes : List Byte) {m : List Host.Cell} (h : storeWf m = true) :
    storeWf (writePieces places bytes m) = true := by
  induction places generalizing bytes m with
  | nil => exact h
  | cons p rest ih => exact ih _ (writeBytes_wf _ _ h)

end Sys2Proof.Machine
end

