-- ==== Sys2Proof/Tests/Slice0.lean ====
section
/-! SUPPORT. Small tests of the model: what is not well formed, the manual's worked figures, bytes of the wire, one step of each
command, and for every obligation with hypotheses a state and operands that meet them. -/

namespace Sys2Proof.Tests

open Sys2Proof.Machine

/-! ## Commands that cannot stand on the wire -/

theorem test_illFormed_frame : (Instr.linkFrame 0 false []).wf = false ∧
    (Instr.linkFrame 0 false (List.replicate 257 0)).wf = false ∧ (Instr.linkFrame 0 true [0]).wf = true := by
  decide +kernel

theorem test_illFormed_unknownKind : (Instr.unknownKind 0 1 0 []).wf = false ∧ (Instr.unknownKind 0 256 0 []).wf = false ∧
    (Instr.unknownKind 0 0 (2 ^ 32) []).wf = false ∧ (Instr.unknownKind 0 0 0 (List.replicate 4089 0)).wf = false ∧
    (Instr.unknownKind 0 82 0 []).wf = true := by
  decide +kernel

theorem test_illFormed_jobs : (Instr.jobOpen 0 (2 ^ 32) 1 0 1 1).wf = false ∧ (Instr.jobOpen 0 0 256 0 1 1).wf = false ∧
    (Instr.jobOpen 0 0 1 256 1 1).wf = false ∧ (Instr.jobOpen 0 0 1 0 (2 ^ 32) 1).wf = false ∧
    (Instr.jobOpen 0 0 1 0 1 (2 ^ 32)).wf = false ∧ (Instr.jobClose 0 (2 ^ 32) 1).wf = false ∧
    (Instr.jobClose 0 0 256).wf = false := by decide

theorem test_illFormed_roster : (Instr.roster 0 (2 ^ 32) 1 0 []).wf = false ∧ (Instr.roster 0 0 (2 ^ 32) 0 []).wf = false ∧
    (Instr.roster 0 0 1 256 []).wf = false ∧ (Instr.roster 0 0 1 0 (List.replicate 256 65)).wf = false := by
  decide +kernel

theorem test_illFormed_head :
    (Instr.portraitHead 0 (2 ^ 32) 1 1 16 16 0 0 0 0 0).wf = false ∧
    (Instr.portraitHead 0 0 (2 ^ 32) 1 16 16 0 0 0 0 0).wf = false ∧
    (Instr.portraitHead 0 0 1 65536 16 16 0 0 0 0 0).wf = false ∧
    (Instr.portraitHead 0 0 1 1 65536 16 0 0 0 0 0).wf = false ∧
    (Instr.portraitHead 0 0 1 1 16 65536 0 0 0 0 0).wf = false ∧
    (Instr.portraitHead 0 0 1 1 16 16 65536 0 0 0 0).wf = false ∧
    (Instr.portraitHead 0 0 1 1 16 16 0 65536 0 0 0).wf = false ∧
    (Instr.portraitHead 0 0 1 1 16 16 0 0 65536 0 0).wf = false ∧
    (Instr.portraitHead 0 0 1 1 16 16 0 0 0 65536 0).wf = false ∧
    (Instr.portraitHead 0 0 1 1 16 16 0 0 0 0 65536).wf = false := by decide

theorem test_illFormed_strip : (Instr.portraitStrip 0 (2 ^ 32) 1 0 0 []).wf = false ∧
    (Instr.portraitStrip 0 0 (2 ^ 32) 0 0 []).wf = false ∧ (Instr.portraitStrip 0 0 1 65536 0 []).wf = false ∧
    (Instr.portraitStrip 0 0 1 0 65536 []).wf = false ∧
    (Instr.portraitStrip 0 0 1 0 0 (List.replicate 4081 0)).wf = false := by
  decide +kernel

theorem test_illFormed_end : (Instr.portraitEnd 0 (2 ^ 32) 1 0).wf = false ∧
    (Instr.portraitEnd 0 0 (2 ^ 32) 0).wf = false ∧ (Instr.portraitEnd 0 0 1 65536).wf = false := by decide

/-- A PORTRAIT slot for cell 0. -/
def slot0 : SlotFields := ⟨2, 0, 0, 0, 0, ⟨0, 0, 0⟩, 0, 0, 40, 50⟩

theorem test_illFormed_slot : slot0.wf = true ∧ ({ slot0 with kind := 256 } : SlotFields).wf = false ∧
    ({ slot0 with cell := 256 } : SlotFields).wf = false ∧ ({ slot0 with paired := 256 } : SlotFields).wf = false ∧
    ({ slot0 with font := 256 } : SlotFields).wf = false ∧ ({ slot0 with align := 256 } : SlotFields).wf = false ∧
    ({ slot0 with x := 65536 } : SlotFields).wf = false ∧ ({ slot0 with y := 65536 } : SlotFields).wf = false ∧
    ({ slot0 with w := 65536 } : SlotFields).wf = false ∧ ({ slot0 with h := 65536 } : SlotFields).wf = false := by decide

/-- A TEMPLATE of a white page with the given slots. -/
def templateOf (tag number width height band : Nat) (slots : List SlotFields) : Instr :=
  .template 0 tag number width height band ⟨255, 255, 255⟩ ⟨9, 9, 9⟩ ⟨0, 0, 0⟩ slots

theorem test_illFormed_template : (templateOf (2 ^ 32) 0 600 600 64 []).wf = false ∧
    (templateOf 0 256 600 600 64 []).wf = false ∧ (templateOf 0 0 65536 600 64 []).wf = false ∧
    (templateOf 0 0 600 65536 64 []).wf = false ∧ (templateOf 0 0 600 600 65536 []).wf = false ∧
    (templateOf 0 0 600 600 64 [{ slot0 with kind := 256 }]).wf = false ∧
    (templateOf 0 0 600 600 64 (List.replicate 204 slot0)).wf = false := by
  decide +kernel

theorem test_illFormed_font : (Instr.font 0 (2 ^ 32) 0 8 0 1).wf = false ∧ (Instr.font 0 0 256 8 0 1).wf = false ∧
    (Instr.font 0 0 0 256 0 1).wf = false ∧ (Instr.font 0 0 0 8 256 1).wf = false ∧
    (Instr.font 0 0 0 8 0 256).wf = false := by decide

theorem test_illFormed_glyph : (Instr.glyph 0 (2 ^ 32) 0 65 1 []).wf = false ∧ (Instr.glyph 0 0 256 65 1 []).wf = false ∧
    (Instr.glyph 0 0 0 256 1 []).wf = false ∧ (Instr.glyph 0 0 0 65 256 []).wf = false ∧
    (Instr.glyph 0 0 0 65 1 (List.replicate 4085 0)).wf = false := by
  decide +kernel

theorem test_illFormed_page : (Instr.page 0 (2 ^ 32) 1 0 1 0 1 [] []).wf = false ∧
    (Instr.page 0 0 65536 0 1 0 1 [] []).wf = false ∧ (Instr.page 0 0 1 65536 1 0 1 [] []).wf = false ∧
    (Instr.page 0 0 1 0 256 0 1 [] []).wf = false ∧ (Instr.page 0 0 1 0 1 256 1 [] []).wf = false ∧
    (Instr.page 0 0 1 0 1 0 256 [] []).wf = false ∧ (Instr.page 0 0 1 0 1 0 1 (List.replicate 256 65) []).wf = false ∧
    (Instr.page 0 0 1 0 1 0 1 [] (List.replicate 256 0)).wf = false ∧ (Instr.page 0 0 1 0 1 0 1 [] [2 ^ 32]).wf = false ∧
    (Instr.pageCancel 0 (2 ^ 32) 1).wf = false ∧ (Instr.pageCancel 0 0 65536).wf = false := by
  decide +kernel

theorem test_illFormed_settings : (Instr.setReadyWatermark 0 (2 ^ 32) 0 0).wf = false ∧
    (Instr.setReadyWatermark 0 0 0 (2 ^ 32)).wf = false ∧ (Instr.setStallLimit 0 (2 ^ 32) 0).wf = false ∧
    (Instr.setStallLimit 0 0 (2 ^ 32)).wf = false ∧ (Instr.setGlobalTarget 0 (2 ^ 32) 0).wf = false ∧
    (Instr.setGlobalTarget 0 0 (2 ^ 32)).wf = false ∧ (Instr.setLead 0 (2 ^ 32) 0).wf = false ∧
    (Instr.setLead 0 0 (2 ^ 32)).wf = false ∧ (Instr.setInterval 0 (2 ^ 32) .page 0).wf = false ∧
    (Instr.setInterval 0 0 .page (2 ^ 32)).wf = false ∧ (Instr.setInterval 0 0 .reply 0).wf = false ∧
    (Instr.setStoreLowMark 0 (2 ^ 32) 0).wf = false ∧ (Instr.setStoreLowMark 0 0 (2 ^ 32)).wf = false := by decide

theorem test_illFormed_queries : (Instr.queryStatus 0 (2 ^ 32)).wf = false ∧ (Instr.queryChannel 0 (2 ^ 32) 0).wf = false ∧
    (Instr.queryChannel 0 0 (2 ^ 32)).wf = false ∧ (Instr.queryEntry 0 (2 ^ 32) 0).wf = false ∧
    (Instr.queryEntry 0 0 (2 ^ 32)).wf = false ∧ (Instr.queryPage 0 (2 ^ 32) 0).wf = false ∧
    (Instr.queryPage 0 0 (2 ^ 32)).wf = false ∧ (Instr.queryJob 0 (2 ^ 32) 0).wf = false ∧
    (Instr.queryJob 0 0 (2 ^ 32)).wf = false ∧ (Instr.queryTemplate 0 (2 ^ 32) 0).wf = false ∧
    (Instr.queryTemplate 0 0 (2 ^ 32)).wf = false := by decide

theorem test_illFormed_control : (Instr.flagsClearOverflow 0 (2 ^ 32) 0).wf = false ∧
    (Instr.flagsClearFraming 0 (2 ^ 32) 0).wf = false ∧ (Instr.flagsClearStoreLowSeen 0 (2 ^ 32)).wf = false ∧
    (Instr.noticeFlush 0 (2 ^ 32)).wf = false ∧ (Instr.channelReset 0 (2 ^ 32) 0).wf = false ∧
    (Instr.channelReset 0 0 256).wf = false ∧ (Instr.clear 0 (2 ^ 32)).wf = false := by decide

theorem test_illFormed_press : (Instr.start 65536).wf = false ∧ (Instr.done 65536).wf = false ∧
    (Instr.fault 65536).wf = false ∧ (Instr.badMessage 17 0).wf = false ∧ (Instr.badMessage 256 0).wf = false ∧
    (Instr.badMessage 0 65536).wf = false ∧ (Instr.gateExpiry .reply).wf = false := by decide

/-! ## Figures the manual works out -/

/-- 4.2: the last row of the luminance table, and its neutral grey. -/
theorem test_luminance : luminance 210 180 160 = 187 ∧ luminance 0 0 255 = 29 ∧ luminance 100 100 100 = 100 := by decide

/-- 4.5: the clamping and rounding table. -/
theorem test_gain : measuredGain 128 143 = 917 ∧ measuredGain 128 107 = 1225 ∧ measuredGain 128 65 = 2016 ∧
    measuredGain 224 150 = 1529 ∧ measuredGain 128 0 = 2048 ∧ measuredGain 128 63 = 2048 ∧ measuredGain 128 255 = 514 := by
  decide

/-- 4.6: the reference case of gain 1,225. -/
theorem test_correction : applyGain 1225 0 = 0 ∧ applyGain 1225 40 = 48 ∧ applyGain 1225 200 = 239 ∧
    applyGain 1225 230 = 255 := by decide

/-- 7.5: 600 × 750 in 240 × 320; columns 0, 1, 239 and lines 304, 319. -/
theorem test_scaler :
    scalerFor 600 750 240 320 = { step := 153600, dw := 240, dh := 320, mx := 0, my := 0, ox := 1228800, oy := 0
                                  undersized := false } ∧
    (scalerFor 600 750 240 320).column 0 = 18 ∧ (scalerFor 600 750 240 320).column 1 = 21 ∧
    (scalerFor 600 750 240 320).column 239 = 578 ∧ (scalerFor 600 750 240 320).line 304 = 712 ∧
    (scalerFor 600 750 240 320).line 319 = 747 := by decide

/-! ## Bytes of the wire, written out from chapter 11 -/

/-- 11.2: a SYNC frame of channel 3 with two payload bytes. -/
theorem test_frame_bytes : decodeForwardFrame [0x83, 0x01, 0xAA, 0xBB] = some (.linkFrame 3 true [0xAA, 0xBB]) ∧
    decodeForwardFrame [0x01, 0x00, 0x55] = some (.linkFrame 1 false [0x55]) ∧
    decodeForwardFrame [0x01, 0x01, 0x55] = none := by decide

/-- 11.6: the five press messages. -/
theorem test_press_bytes : decodePressMessage [0x11, 0, 0x01, 0x02] = some (.start 258) ∧
    decodePressMessage [0x12, 0, 0, 0] = some .demand ∧ decodePressMessage [0x13, 0, 0, 7] = some (.done 7) ∧
    decodePressMessage [0x14, 0, 0, 7] = some (.fault 7) ∧ decodePressMessage [0x15, 0, 0, 0] = some .restart ∧
    decodePressMessage [0x16, 0, 0, 9] = some (.badMessage 22 9) := by decide

/-- The command table gives no bits: no word spells a command, and no word is put into the queue. -/
theorem test_noTableWord : decodeTableWord 8 17 = none ∧ State.reset.withFetchWord 8 17 = State.reset := by decide

/-- 11.2 and 11.3: records written out field by field. -/
theorem test_record_bytes :
    (Instr.jobOpen 2 0x01020304 5 64 0x11 0x22).wireRecord = some (2,
      [1, 0, 0, 20, 1, 2, 3, 4, 5, 64, 0, 0, 0, 0, 0, 0x11, 0, 0, 0, 0x22]) ∧
    (Instr.portraitHead 1 7 0x0A0B 3 600 750 100 120 200 240 1024).wireRecord = some (1,
      [16, 0, 0, 28, 0, 0, 0, 7, 0, 0, 0x0A, 0x0B, 0, 3, 2, 0x58, 2, 0xEE, 0, 100, 0, 120, 0, 200, 0, 240, 4, 0]) ∧
    (Instr.page 0 7 9 5000 5 2 3 [65] [0x0A0B, 0]).wireRecord = some (0,
      [48, 0, 0, 29, 0, 0, 0, 7, 0, 9, 0x13, 0x88, 5, 2, 3, 1, 2, 0, 0, 0, 65, 0, 0, 0x0A, 0x0B, 0, 0, 0, 0]) ∧
    (Instr.setInterval 3 7 .portrait 1000).wireRecord = some (3,
      [64, 0, 0, 20, 0, 0, 0, 7, 1, 0, 0, 0, 0, 10, 0, 0, 0, 0, 3, 0xE8]) ∧
    (Instr.queryEntry 3 7 9).wireRecord = some (3, [65, 0, 0, 16, 0, 0, 0, 7, 3, 0, 0, 0, 0, 0, 0, 9]) := by decide

/-- 11.4: PORTRAIT-FAILED is code 3 of class 3; a NOTICE has 40 bytes and its overrun mark in bit 0 of its flags. -/
theorem test_notice_bytes : (Transfer.bytes ⟨.notice ⟨.portraitFailed, 7, 9, [.two 3, .two 1, .two 4, .two 2]⟩, true⟩) =
    [129, 1, 0, 40, 0, 0, 0, 7, 3, 3, 0, 0, 0, 0, 0, 9, 0, 3, 0, 1, 0, 4, 0, 2] ++ List.replicate 16 0 := by decide

/-! ## States for the tests -/

/-- What a command leaves. -/
def after (c : Instr) (s : State) : State :=
  match exec c s with
  | .next t => t
  | .fault _ => s
  | .refused _ => s

/-- Job 1 with the window 1 to 10. -/
def job : Job := { id := 1, base := 1, limit := 10, target := 0, state := .opened, livePages := 0 }

/-- A part with job 1. -/
def withJob : State := { State.reset with jobs := [job] }

/-- A version of 16 × 16, one block. -/
def version (number block lines pins : Nat) (state : VersionState) : Version where
  number := number
  width := 16
  height := 16
  blocks := [⟨block, 1⟩]
  lines := lines
  sum := lines * 800
  count := lines * 8
  fixedGain := none
  state := state
  pins := pins

/-- Key 5 of job 1 with the versions given. -/
def entry (incoming current retiring : Option Version) : Entry :=
  { newEntry 5 1 with incoming := incoming, current := current, retiring := retiring }

/-- Job 1 and an entry of key 5. -/
def withEntry (incoming current retiring : Option Version) : State :=
  { State.reset with jobs := [job], entries := [entry incoming current retiring], freeBlocks := [⟨3, 229373⟩] }

/-- Channel 0 with a binding. -/
def bound (b : Binding) (s : State) : State := { s with chans := s.chans.set 0 { Channel.reset with binding := b } }

/-- Key 5 open on channel 0 with `lines` lines counted and strip `n` expected. -/
def opened (lines n : Nat) : State :=
  bound (.opened 5 n) (withEntry (some (version 2 0 lines 0 (.filling ⟨4, 4, 8, 8⟩))) none none)

/-- A complete version. -/
def complete (number block pins : Nat) : Version := version number block 16 pins (.complete 100 1311 6)

/-- A template of 600 × 600 with bands of 64 lines and one PORTRAIT slot of cell 0. -/
def sheet : TemplateBuffer where
  number := 0
  tag := 3
  superseded := none
  pins := 1
  width := 600
  height := 600
  bandHeight := 64
  background := ⟨255, 255, 255⟩
  placeholder := ⟨9, 9, 9⟩
  ink := ⟨0, 0, 0⟩
  slotCount := 1
  sizeClamped := false
  bandDefaulted := false
  bandIndex := [⟨0, ⟨0, 0, 40, 50⟩, .portrait 0⟩]

/-- Page 1 of job 1 on template buffer 0, its cell without a subject. -/
def aPage (state : PageState) (bands : List BandRecord) (log : List SendMark) : Page where
  id := 1
  jobId := 1
  tag := 4
  buffer := 0
  maxAttempts := 2
  hold := 5
  title := none
  cells := [(0, 0)]
  state := state
  permit := false
  timer := .notStarted
  cast := none
  attempt := 1
  spoiled := false
  firstCount := 0
  bands := bands
  sendLog := log

/-- A part with job 1, template 0, the given pages, and the compositor BUSY with band 9 of page 1. -/
def withPages (pages : List Page) (offer : Option OfferSlot) : State :=
  { State.reset with
    jobs := [{ job with livePages := pages.length }]
    templates := State.reset.templates.set 0 (some sheet)
    pages := pages
    compositor := .busy ⟨1, 9, false⟩ 1
    offer := offer
    freeBuffers := List.range' 1 127 }

/-- Page 1 PRINTING, band 0 COMPOSED in buffer 0, with its send cursor. -/
def printing (cursor : Nat) : State :=
  { withPages [aPage .printing [⟨0, [0], .composed⟩] (List.replicate 10 .unsent)] (some ⟨1, true⟩) with cursor := some cursor }

/-- Page 1 PRINTING with band `b` leaving the port. -/
def sendingBand (b : Nat) (real : Bool) : State :=
  { withPages [aPage .printing [⟨b, [0], .composed⟩] (List.replicate 10 .real)] (some ⟨1, true⟩) with
    cursor := some (b + 1), sending := some ⟨1, b, real⟩ }

/-- Page 1 in the path. -/
def inPath : State :=
  { withPages [aPage .inPath [⟨0, [0], .sent⟩] (List.replicate 10 .real)] none with path := [1] }

/-- Channel 0 waits for a job slot with a JOB OPEN. -/
def waitingJob : State :=
  { State.reset with
    waiting := [⟨0, .jobSlot, 20⟩]
    chans := State.reset.chans.set 0 { Channel.reset with buffer := jobOpenRecord 7 1 0 1 10 } }

/-- Channel 0 waits for an entry with a PORTRAIT HEAD of key 5. -/
def waitingHead : State :=
  { State.reset with
    waiting := [⟨0, .entry, 20⟩]
    chans := State.reset.chans.set 0 { Channel.reset with buffer := portraitHeadRecord 7 5 1 16 16 0 0 0 0 0 } }

/-- Channel 0 in RESYNC after a CHANNEL RESET of tag 7. -/
def inResync : State := { State.reset with chans := State.reset.chans.set 0 { Channel.reset with mode := .resync, resetTag := 7 } }

/-- The reset input low. -/
def resetLow : State := { State.reset with inReset := true }

/-- Whether a binding skips. -/
def skipping : Binding → Bool
  | .skipping _ => true
  | _ => false

theorem noSkip_of {b : Binding} (h : skipping b = false) (key : Nat) : b ≠ .skipping key := by
  rintro rfl
  cases h

/-- A channel listens where each of the conditions can be seen. -/
theorem listening_of {ch : Chan} {s : State} (h : s.inReset = false ∧ s.waiting = [] ∧ s.wake = false ∧
    (∀ c, s.presents c = false) ∧ s.chans[ch].mode = .active ∧ s.chans[ch].buffer = [] ∧ s.chans[ch].ready = true ∧
    s.chans[ch].watermark ≤ 12288) (hj : StoreJudged s) (hs : Steady s) : Listening ch s where
  up := h.1
  noWaiters := h.2.1
  noWake := h.2.2.1
  still := h.2.2.2.1
  judged := hj
  steady := hs
  active := h.2.2.2.2.1
  empty := h.2.2.2.2.2.1
  ready := h.2.2.2.2.2.2.1
  mark := h.2.2.2.2.2.2.2

theorem steady_of {s : State} (h : s.pages = [] ∧ s.compositor = .free) : Steady s := .inl h

theorem busy_of {s : State} {item : WorkItem} {need : Nat} (h : s.compositor = .busy item need ∧ s.offer.isSome = true) :
    Steady s := .inr ⟨⟨item, need, h.1⟩, h.2⟩

theorem judged_of {s : State} (h : s.storeLow = false ∧ s.lowMark ≤ s.freeCount) : StoreJudged s := by
  unfold StoreJudged
  rw [h.1]
  exact h.2

theorem test_quiet_reset (ch : Chan) : Quiet ch State.reset where
  toListening := listening_of (by revert ch; decide) (judged_of (by decide)) (steady_of (by decide))
  noSkip := noSkip_of (by revert ch; decide)

theorem test_quiet_job : Quiet 0 withJob where
  toListening := listening_of (by decide) (judged_of (by decide)) (steady_of (by decide))
  noSkip := noSkip_of (by decide)

/-- The hypotheses of most statements about a record command: a quiet channel and a command that can stand on the wire. -/
abbrev Meets (ch : Chan) (c : Instr) (s : State) : Prop := Quiet ch s ∧ c.wf = true

/-- A quiet channel where each of the conditions can be seen. -/
theorem quiet_of {ch : Chan} {s : State} (h : s.inReset = false ∧ s.waiting = [] ∧ s.wake = false ∧
    (∀ c, s.presents c = false) ∧ s.chans[ch].mode = .active ∧ s.chans[ch].buffer = [] ∧ s.chans[ch].ready = true ∧
    s.chans[ch].watermark ≤ 12288) (hj : s.storeLow = false ∧ s.lowMark ≤ s.freeCount)
    (hb : skipping s.chans[ch].binding = false) (hs : Steady s) : Quiet ch s where
  toListening := listening_of h (judged_of hj) hs
  noSkip := noSkip_of hb

theorem noSkip_reset (ch : Chan) : skipping State.reset.chans[ch].binding = false := by
  revert ch
  decide

/-- Every channel is quiet where all stand at reset. -/
theorem quiet_chans {s : State} (ch : Chan) (hc : s.chans = State.reset.chans)
    (hu : s.inReset = false ∧ s.waiting = [] ∧ s.wake = false) (hj : s.storeLow = false ∧ s.lowMark ≤ s.freeCount)
    (hs : Steady s) : Quiet ch s := by
  refine quiet_of ⟨hu.1, hu.2.1, hu.2.2, ?_, ?_⟩ hj ?_ hs
  · intro c
    unfold State.presents State.stalled State.waitOf
    rw [hc, hu.2.1]
    revert c
    decide
  · rw [hc]
    revert ch
    decide
  · rw [hc]
    exact noSkip_reset ch

/-! ## States and operands that meet the hypotheses of the obligations -/

theorem test_witness_StepTakesFront :
    ({ State.reset with pending := [.demand, .restart] } : State).pending = .demand :: [.restart] ∧
    State.reset.pending = [] ∧ resetLow.pending = [] ∧ resetLow.inReset = true ∧ State.reset.inReset = false ∧
    State.reset.due = [] ∧ ({ waitingJob with now := 300020 } : State).due = [.stall 0] ∧
    ({ waitingJob with now := 300019 } : State).due = [] := by decide

theorem test_witness_LinkFrame :
    (∃ s : State, s.inReset = false ∧ s.chans[(0 : Chan)].mode = .active ∧
      [(1 : Byte)].length ≤ 16384 - s.chans[(0 : Chan)].buffer.length ∧
      16384 - s.chans[(0 : Chan)].buffer.length < [(1 : Byte), 2].length) ∧
    inResync.inReset = false ∧ inResync.chans[(0 : Chan)].mode = .resync := by
  refine ⟨⟨{ State.reset with chans := State.reset.chans.set 0 { Channel.reset with buffer := List.replicate 16383 0 } },
    rfl, by decide, ?_, ?_⟩, by decide, by decide⟩ <;> decide +kernel

theorem test_witness_ResyncEntered : (opened 8 1).chans[(0 : Chan)].mode = .active ∧
    (opened 8 1).chans[(0 : Chan)].watermark ≤ 12288 ∧ (opened 8 1).chans[(0 : Chan)].binding = .opened 5 1 ∧
    (opened 8 1).fillingVersion 5 ≠ none ∧ inResync.chans[(0 : Chan)].mode = .resync ∧
    waitingHead.chans[(0 : Chan)].mode = .active ∧ (waitingHead.waitOf 0).isSome := by decide

theorem test_witness_UnknownKind : Meets 0 (.unknownKind 0 0 7 []) State.reset ∧
    Meets 3 (.unknownKind 3 255 7 [1]) State.reset :=
  ⟨⟨test_quiet_reset 0, by decide⟩, test_quiet_reset 3, by decide⟩

theorem test_witness_SkipDiscards : Listening 0 (bound (.skipping 5) State.reset) ∧
    (bound (.skipping 5) State.reset).chans[(0 : Chan)].binding = .skipping 5 ∧
    (Instr.portraitStrip 0 7 5 0 0 []).wf = true ∧ (Instr.portraitEnd 0 7 5 0).wf = true ∧
    (Instr.portraitEnd 0 7 6 0).wf = true ∧ (Instr.portraitEnd 0 7 6 0).wireRecord = some (0, portraitEndRecord 7 6 0) ∧
    carriesSkipKey (portraitEndRecord 7 6 0) 5 = false :=
  ⟨listening_of (by decide) (judged_of (by decide)) (steady_of (by decide)), by decide⟩

/-- Eight live jobs with the windows 1, 2, … 8. -/
def eightJobs : State :=
  { State.reset with jobs := (List.range' 1 8).map fun n => { job with id := n, base := n, limit := n } }

theorem test_witness_JobOpen : Meets 0 (.jobOpen 0 7 0 0 1 1) State.reset ∧ Meets 0 (.jobOpen 0 7 2 0 10 20) withJob ∧
    Meets 0 (.jobOpen 0 7 2 0 11 20) withJob ∧ Meets 0 (.jobOpen 0 7 9 0 9 9) eightJobs ∧
    eightJobs.jobs.length = 8 ∧ eightJobs.job? 9 = none :=
  ⟨⟨test_quiet_reset 0, by decide⟩, ⟨test_quiet_job, by decide⟩, ⟨test_quiet_job, by decide⟩,
    ⟨quiet_of (by decide) (by decide) (by decide) (steady_of (by decide)), by decide⟩, by decide⟩

/-- Job 1 CLOSING with one live page. -/
def closing : State := { State.reset with jobs := [{ job with state := .closing 3, livePages := 1 }] }

theorem test_witness_JobClose : Meets 0 (.jobClose 0 7 1) State.reset ∧ State.reset.job? 1 = none ∧
    Meets 0 (.jobClose 0 7 1) closing ∧ closing.job? 1 = some { job with state := .closing 3, livePages := 1 } ∧
    Meets 0 (.jobClose 0 7 1) withJob ∧ withJob.job? 1 = some job ∧
    job.state = .opened :=
  ⟨⟨test_quiet_reset 0, by decide⟩, by decide,
    ⟨quiet_of (by decide) (by decide) (by decide) (steady_of (by decide)), by decide⟩, by decide,
    ⟨test_quiet_job, by decide⟩, by decide, by decide⟩

theorem test_witness_JobCompletes : ({ job with state := .closing 3 } : Job).state = .closing 3 ∧ job.livePages = 0 := by
  decide

/-- The directory full, none of its entries of key 5. -/
def fullDirectory : State := { State.reset with jobs := [job], entries := List.replicate 1024 (newEntry 6 1) }

theorem test_quiet_full : Quiet 0 fullDirectory :=
  quiet_of (by decide) (by decide) (by decide) (steady_of ⟨rfl, rfl⟩)

theorem test_fullDirectory : fullDirectory.entry? 5 = none ∧ 1024 ≤ fullDirectory.entries.length ∧
    fullDirectory.claim 5 = .ok job := by decide +kernel

theorem test_witness_Roster : Meets 0 (.roster 0 7 5 4 []) State.reset ∧ Meets 0 (.roster 0 7 5 3 []) State.reset ∧
    State.reset.claim 5 = .error .outOfWindow ∧ Meets 0 (.roster 0 7 5 3 [65]) fullDirectory ∧
    Meets 0 (.roster 0 7 10 3 [65]) withJob :=
  ⟨⟨test_quiet_reset 0, by decide⟩, ⟨test_quiet_reset 0, by decide⟩, rfl, ⟨test_quiet_full, by decide⟩, test_quiet_job, by decide⟩

/-- A PORTRAIT HEAD of key 5. -/
def head (version width height : Nat) : Instr := .portraitHead 0 7 5 version width height 0 0 0 0 0

theorem quiet_entry {incoming current retiring : Option Version} : Quiet 0 (withEntry incoming current retiring) :=
  quiet_chans 0 rfl ⟨rfl, rfl, rfl⟩ ⟨rfl, (by decide : (8192 : Nat) ≤ 229373)⟩ (steady_of ⟨rfl, rfl⟩)

theorem test_witness_PortraitHead : Meets 0 (head 1 16 16) State.reset ∧ State.reset.chans[(0 : Chan)].binding = .unbound ∧
    Meets 0 (head 1 15 16) withJob ∧ Meets 0 (head 1 1024 1280) withJob ∧
    Meets 0 (head 1 1024 1281) withJob ∧ Meets 0 (head 1 16 16) fullDirectory ∧
    Meets 0 (head 3 16 16) (withEntry (some (version 2 0 0 0 (.filling ⟨4, 4, 8, 8⟩))) none none) ∧
    Meets 0 (head 2 16 16) (withEntry none (some (complete 2 0 0)) none) ∧
    Meets 0 (head 3 16 16) (withEntry none (some (complete 2 0 0)) none) ∧
    Meets 0 (head 3 16 16) (withEntry none (some (complete 2 0 1)) (some (complete 1 1 1))) ∧
    Meets 0 (head 1 16 16) { State.reset with jobs := [job], freeBlocks := [], lowMark := 0 } :=
  ⟨⟨test_quiet_reset 0, by decide⟩, by decide, ⟨test_quiet_job, by decide⟩, ⟨test_quiet_job, by decide⟩,
    ⟨test_quiet_job, by decide⟩, ⟨test_quiet_full, by decide⟩, ⟨quiet_entry, by decide⟩, ⟨quiet_entry, by decide⟩,
    ⟨quiet_entry, by decide⟩, ⟨quiet_entry, by decide⟩,
    quiet_of (by decide) (by decide) (by decide) (steady_of ⟨rfl, rfl⟩), by decide⟩

theorem quiet_opened (lines n : Nat) : Quiet 0 (opened lines n) where
  toListening := listening_of ⟨rfl, rfl, rfl, by intro c; fin_cases c <;> rfl, rfl, rfl, rfl, (by decide : (4608 : Nat) ≤ 12288)⟩
    (judged_of ⟨rfl, (by decide : (8192 : Nat) ≤ 229373)⟩) (steady_of ⟨rfl, rfl⟩)
  noSkip := noSkip_of rfl

/-- The HEAD clause for a channel that holds a portrait open: a HEAD of its key and of another, and JOB CLOSE of its job. -/
theorem test_witness_PortraitHead_open : Meets 0 (head 1 16 16) (opened 8 1) ∧
    Meets 0 (.portraitHead 0 7 6 1 15 16 0 0 0 0 0) (opened 8 1) ∧ (opened 8 1).chans[(0 : Chan)].binding = .opened 5 1 ∧
    (opened 8 1).entry? 5 = some (entry (some (version 2 0 8 0 (.filling ⟨4, 4, 8, 8⟩))) none none) ∧
    (opened 8 1).lowMark ≤ 229376 ∧ Meets 0 (.jobClose 0 7 1) (opened 8 1) ∧ (opened 8 1).job? 1 = some job :=
  ⟨⟨quiet_opened 8 1, by decide⟩, ⟨quiet_opened 8 1, by decide⟩, by decide, by decide, by decide,
    ⟨quiet_opened 8 1, by decide⟩, by decide⟩

/-- The filling version that `opened` holds. -/
def filling (lines : Nat) : Version := version 2 0 lines 0 (.filling ⟨4, 4, 8, 8⟩)

/-- A PORTRAIT STRIP of key 5 with the pixels its line count calls for. -/
def strip (index lines : Nat) : Instr := .portraitStrip 0 7 5 index lines (List.replicate (lines * 48) 0)

theorem test_witness_PortraitStrip : Meets 0 (strip 1 8) (opened 8 1) ∧ Meets 0 (strip 1 9) (opened 8 1) ∧
    Meets 0 (strip 2 8) (opened 8 1) ∧ Meets 0 (.portraitStrip 0 7 6 0 0 []) (opened 8 1) ∧ Meets 0 (strip 0 0) State.reset ∧
    (opened 8 1).chans[(0 : Chan)].binding = .opened 5 1 ∧ (opened 8 1).entry? 5 = some (entry (some (filling 8)) none none) ∧
    (entry (some (filling 8)) none none).incoming = some (filling 8) ∧ (filling 8).state = .filling ⟨4, 4, 8, 8⟩ ∧
    (filling 8).lines + 8 = (filling 8).height ∧ (5 : Nat) ≠ 6 ∧ State.reset.chans[(0 : Chan)].binding = .unbound :=
  ⟨⟨quiet_opened 8 1, by decide +kernel⟩, ⟨quiet_opened 8 1, by decide +kernel⟩, ⟨quiet_opened 8 1, by decide +kernel⟩,
    ⟨quiet_opened 8 1, by decide⟩, ⟨test_quiet_reset 0, by decide⟩, by decide⟩

theorem test_witness_PortraitEnd : Meets 0 (.portraitEnd 0 7 5 16) (opened 16 2) ∧ Meets 0 (.portraitEnd 0 7 5 16) (opened 8 1) ∧
    Meets 0 (.portraitEnd 0 7 6 16) (opened 16 2) ∧ Meets 0 (.portraitEnd 0 7 5 16) State.reset ∧
    (opened 16 2).entry? 5 = some (entry (some (filling 16)) none none) ∧
    (filling 16).state = .filling ⟨4, 4, 8, 8⟩ ∧ (filling 16).height = 16 ∧ (filling 16).lines = 16 ∧
    (opened 8 1).entry? 5 = some (entry (some (filling 8)) none none) ∧ (filling 8).lines ≠ (filling 8).height :=
  ⟨⟨quiet_opened 16 2, by decide⟩, ⟨quiet_opened 8 1, by decide⟩, ⟨quiet_opened 16 2, by decide⟩,
    ⟨test_quiet_reset 0, by decide⟩, by decide⟩

theorem test_witness_RoleTaken :
    (withEntry (some (filling 16)) none none).entry? 5 = some (entry (some (filling 16)) none none) ∧
    (withEntry (some (filling 16)) (some (complete 1 1 0)) none).entry? 5 = some (entry (some (filling 16)) (some (complete 1 1 0)) none) ∧
    (withEntry (some (filling 16)) (some (complete 1 1 1)) none).entry? 5 = some (entry (some (filling 16)) (some (complete 1 1 1)) none) ∧
    (withEntry (some (filling 16)) (some (complete 1 1 1)) (some (complete 0 2 1))).entry? 5 =
      some (entry (some (filling 16)) (some (complete 1 1 1)) (some (complete 0 2 1))) ∧
    (complete 2 0 0).state = .complete 100 1311 6 ∧ (complete 1 1 0).pins = 0 ∧ 0 < (complete 1 1 1).pins := by decide

/-- Every template buffer in use. -/
def noBuffer : State := { State.reset with templates := Vector.replicate 12 (some sheet) }

theorem test_witness_Template : Meets 0 (templateOf 7 8 600 600 64 []) State.reset ∧ Meets 0 (templateOf 7 7 600 600 64 [slot0]) State.reset ∧
    Meets 0 (templateOf 7 0 600 600 64 [slot0, slot0]) State.reset ∧
    Meets 0 (templateOf 7 0 600 600 64 [{ slot0 with cell := 80 }, { slot0 with kind := 5 }]) State.reset ∧
    Meets 0 (templateOf 7 0 600 600 64 []) noBuffer :=
  ⟨⟨test_quiet_reset 0, by decide⟩, ⟨test_quiet_reset 0, by decide⟩, ⟨test_quiet_reset 0, by decide⟩,
    ⟨test_quiet_reset 0, by decide⟩,
    quiet_of (by decide) (by decide) (by decide) (steady_of ⟨rfl, rfl⟩), by decide⟩

theorem test_witness_Template_slots : (templateOf 7 0 600 600 64 (List.replicate 192 slot0)).wf = true ∧
    (templateOf 7 0 600 600 64 (List.replicate 193 slot0)).wf = true := by decide +kernel

theorem test_witness_TemplateLoads : (templateOf 7 0 65535 0 5 [slot0]).wf = true ∧ State.reset.templates[(11 : Fin 12)] = none ∧
    (withPages [] none).templates[(1 : Fin 12)] = none ∧ (withPages [] none).mappedBuffer 0 = some 0 := by decide

/-- A page COMPOSING, so that the font lock is held. -/
def locked : State := withPages [aPage .composing [] []] (some ⟨2, false⟩)

theorem quiet_pages {pages : List Page} {slot : OfferSlot} : Quiet 0 (withPages pages (some slot)) :=
  quiet_chans 0 rfl ⟨rfl, rfl, rfl⟩ ⟨rfl, (by decide : (8192 : Nat) ≤ 229376)⟩ (busy_of ⟨rfl, rfl⟩)

theorem test_witness_Font : Meets 0 (.font 0 7 2 8 0 1) State.reset ∧ Meets 0 (.font 0 7 1 255 255 0) State.reset ∧
    Meets 0 (.font 0 7 1 8 0 1) locked ∧ locked.pages.any (fun p => p.state.pinning) = true :=
  ⟨⟨test_quiet_reset 0, by decide⟩, ⟨test_quiet_reset 0, by decide⟩, ⟨quiet_pages, by decide⟩, by decide⟩

/-- Font 0 loaded with glyphs of 8 rows. -/
def withFont : State := { State.reset with fonts := State.reset.fonts.set 0 { metrics := some ⟨8, 1, 3⟩, glyphs := [] } }

theorem test_witness_Glyph : Meets 0 (.glyph 0 7 2 65 1 []) State.reset ∧ Meets 0 (.glyph 0 7 0 127 1 []) State.reset ∧
    Meets 0 (.glyph 0 7 0 126 49 []) State.reset ∧ Meets 0 (.glyph 0 7 0 32 48 []) State.reset ∧
    Meets 0 (.glyph 0 7 0 32 8 []) locked ∧ Meets 0 (.glyph 0 7 0 65 9 (List.replicate 15 0)) withFont ∧
    Meets 0 (.glyph 0 7 0 65 9 (List.replicate 16 0)) withFont :=
  have h : Quiet 0 withFont := quiet_of (by decide) (by decide) (by decide) (steady_of ⟨rfl, rfl⟩)
  ⟨⟨test_quiet_reset 0, by decide⟩, ⟨test_quiet_reset 0, by decide⟩, ⟨test_quiet_reset 0, by decide⟩,
    ⟨test_quiet_reset 0, by decide⟩, ⟨quiet_pages, by decide⟩, ⟨h, by decide⟩, h, by decide⟩

/-- A PAGE for job 1 on template 0. -/
def pageOf (id : Nat) (keys : List Nat) : Instr := .page 0 7 id 5 1 0 2 [65] keys

/-- A part with job 1 and template 0, nothing at work. -/
def idle : State := { withPages [] none with compositor := .free }

/-- Job 1 CLOSING with template 0 loaded. -/
def idleClosing : State := { idle with jobs := [{ job with state := .closing 3, livePages := 1 }] }

/-- Sixteen page records. -/
def fullQueue : State := withPages (List.replicate 16 (aPage .queued [] [])) (some ⟨2, false⟩)

theorem test_witness_Page : Meets 0 (pageOf 0 []) State.reset ∧ Meets 0 (pageOf 1 []) locked ∧ Meets 0 (pageOf 2 []) State.reset ∧
    Meets 0 (pageOf 2 []) withJob ∧ Meets 0 (pageOf 2 [5]) idleClosing ∧
    Meets 0 (pageOf 2 [11]) idle ∧ Meets 0 (pageOf 2 [5, 5]) idle ∧ Meets 0 (pageOf 2 [10]) idle ∧ Meets 0 (pageOf 2 [10]) fullQueue ∧
    fullQueue.pages.length = 16 ∧ fullQueue.page? 2 = none :=
  have h : Quiet 0 idle := quiet_of (by decide) (by decide) (by decide) (steady_of ⟨rfl, rfl⟩)
  have h' : Quiet 0 idleClosing := quiet_of (by decide) (by decide) (by decide) (steady_of ⟨rfl, rfl⟩)
  ⟨⟨test_quiet_reset 0, by decide⟩, ⟨quiet_pages, by decide⟩, ⟨test_quiet_reset 0, by decide⟩, ⟨test_quiet_job, by decide⟩,
    ⟨h', by decide⟩, ⟨h, by decide⟩, ⟨h, by decide⟩, ⟨h, by decide⟩, ⟨quiet_pages, by decide⟩, by decide, by decide⟩

theorem test_witness_PageCancel : Meets 0 (.pageCancel 0 7 2) locked ∧ Meets 0 (.pageCancel 0 7 1) locked ∧
    Meets 0 (.pageCancel 0 7 1) (printing 0) ∧ locked.page? 2 = none ∧ locked.page? 1 = some (aPage .composing [] []) :=
  ⟨⟨quiet_pages, by decide⟩, ⟨quiet_pages, by decide⟩,
    ⟨quiet_of (by decide) (by decide) (by decide) (busy_of ⟨rfl, rfl⟩), by decide⟩, by decide, by decide⟩

theorem test_witness_PageReleased : PageIdsDistinct inPath ∧
    inPath.page? 1 = some (aPage .inPath [⟨0, [0], .sent⟩] (List.replicate 10 .real)) := by
  unfold PageIdsDistinct
  decide

theorem test_witness_SettingsTaken : (∀ ch, Quiet ch State.reset) ∧ ReadyJudged State.reset ∧ 4294967295 < 2 ^ 32 :=
  ⟨test_quiet_reset, by unfold ReadyJudged; decide, by decide⟩

theorem test_witness_QueriesTaken : Quiet 0 State.reset ∧ Quiet 0 { State.reset with
    returnQueue := List.replicate 64 ⟨.reply (setAck 1 7 8 8), false⟩ } :=
  ⟨test_quiet_reset 0, quiet_of (by decide) (by decide) (by decide) (steady_of ⟨rfl, rfl⟩)⟩

/-- FlagsAndFlush, ChannelReset and Clear take the same hypotheses. -/
theorem test_witness_control : (∀ ch, Quiet ch State.reset) ∧ Quiet 0 (opened 8 1) ∧ Quiet 0 locked ∧
    (4294967295 : Nat) < 2 ^ 32 ∧ (3 : Nat) < 4 ∧ (255 : Nat) < 256 :=
  ⟨test_quiet_reset, quiet_opened 8 1, quiet_pages, by decide⟩

theorem test_witness_ResetInput : resetLow.inReset = true ∧ State.reset.inReset = false ∧
    Instr.demand ≠ .masterReset ∧ Instr.demand ≠ .resetInputHigh ∧
    exec .masterReset (printing 0) = .next { State.reset with inReset := true } :=
  ⟨by decide, by decide, by decide, by decide, rfl⟩

/-- Page 1 in the offer slot, OFFERED. -/
def offered : State := withPages [aPage .offered [] (List.replicate 10 .unsent)] (some ⟨1, false⟩)

/-- The branches of PressStart, Done and Fault: a page in the purge list, no offer, PRINTING, another page, the page. -/
theorem test_witness_press : ({ State.reset with inReset := false, purge := [1] } : State).inReset = false ∧
    offered.inReset = false ∧ offered.offer = some ⟨1, false⟩ ∧ (printing 0).inReset = false ∧
    inPath.inReset = false ∧ inPath.path.head? = some 1 ∧ (printing 0).page? 1 ≠ none := by decide

theorem test_witness_Demand : State.reset.inReset = false ∧ State.reset.printingPage = none ∧ (printing 0).inReset = false ∧
    (printing 0).printingPage = some (aPage .printing [⟨0, [0], .composed⟩] (List.replicate 10 .unsent)) ∧
    (printing 0).templateOf (aPage .printing [⟨0, [0], .composed⟩] (List.replicate 10 .unsent)) = some sheet ∧
    (printing 0).sending = none ∧ (printing 0).cursor.getD 0 = 0 ∧ (printing 9).cursor.getD 0 = 9 ∧
    (aPage .printing [⟨0, [0], .composed⟩] (List.replicate 10 .unsent)).band? 0 = some ⟨0, [0], .composed⟩ ∧
    (aPage .printing [⟨0, [0], .composed⟩] (List.replicate 10 .unsent)).band? 9 = none ∧
    (sendingBand 9 true).printingPage ≠ none ∧ (sendingBand 9 true).sending ≠ none := by decide

theorem test_witness_Restart : inPath.inReset = false ∧
    inPath.page? 1 = some (aPage .inPath [⟨0, [0], .sent⟩] (List.replicate 10 .real)) ∧
    (aPage .inPath [⟨0, [0], .sent⟩] (List.replicate 10 .real)).attempt + 1 = 2 ∧
    (aPage .inPath [⟨0, [0], .sent⟩] (List.replicate 10 .real)).maxAttempts = 2 ∧ inPath.sending = none ∧
    (withPages [{ aPage .inPath [] [] with attempt := 2 }] none).page? 1 = some { aPage .inPath [] [] with attempt := 2 } ∧
    (sendingBand 0 true).page? 1 ≠ none ∧ (sendingBand 0 true).sending = some ⟨1, 0, true⟩ := by decide

/-- Page 1 COMPOSING with band 9 in the compositor. -/
def composing : State := withPages [aPage .composing [⟨9, [0], .composing⟩] []] none

theorem test_witness_BandComplete : composing.inReset = false ∧ composing.compositor = .busy ⟨1, 9, false⟩ 1 ∧
    composing.page? 1 = some (aPage .composing [⟨9, [0], .composing⟩] []) ∧
    (aPage .composing [⟨9, [0], .composing⟩] []).band? 9 = some ⟨9, [0], .composing⟩ ∧
    State.reset.inReset = false ∧ State.reset.compositor = .free := by decide

theorem test_witness_SendingEnd : State.reset.sending = none ∧ (sendingBand 0 true).inReset = false ∧
    (sendingBand 0 true).sending = some ⟨1, 0, true⟩ ∧ (sendingBand 9 true).sending = some ⟨1, 9, true⟩ ∧
    (sendingBand 9 false).sending = some ⟨1, 9, false⟩ ∧ (sendingBand 8 false).sending = some ⟨1, 8, false⟩ ∧
    (sendingBand 9 true).page? 1 = some (aPage .printing [⟨9, [0], .composed⟩] (List.replicate 10 .real)) ∧
    (sendingBand 9 true).templateOf (aPage .printing [⟨9, [0], .composed⟩] (List.replicate 10 .real)) = some sheet ∧
    (aPage .printing [⟨9, [0], .composed⟩] (List.replicate 10 .real)).band? 9 = some ⟨9, [0], .composed⟩ ∧
    sheet.bandCount = 10 ∧ (sendingBand 9 true).offer = some { page := 1, printing := true } := by decide

theorem test_witness_TransferEnd : State.reset.inReset = false ∧ State.reset.returnChannel = none ∧
    ({ State.reset with returnChannel := some ⟨.reply (setAck 1 7 8 8), false⟩ } : State).returnChannel ≠ none := by decide

theorem test_witness_StallExpiry : State.reset.waitOf 0 = none ∧ waitingHead.inReset = false ∧
    waitingHead.waitOf 0 = some ⟨0, .entry, 20⟩ ∧ recKind waitingHead.chans[(0 : Chan)].front = some .portraitHead ∧
    12 ≤ waitingHead.chans[(0 : Chan)].front.length ∧ waitingJob.waitOf 0 = some ⟨0, .jobSlot, 20⟩ ∧
    recKind waitingJob.chans[(0 : Chan)].front ≠ some .portraitHead := by decide

/-- Page 1 in GATHERING with its hold timer running, or not. -/
def gathering (timer : HoldTimer) : State :=
  withPages [{ aPage .gathering [] [] with timer := timer, cells := [(0, 5)] }] none

/-- Page 1 in GATHERING with key 5 in cell 0, whose current version 1 no page pins. -/
def casting : State :=
  { gathering .expired with
    entries := [{ entry none (some (complete 1 1 0)) none with name := some [65] }], freeBlocks := [⟨2, 229374⟩] }

/-- Page 1 COMPOSING with version 1 of key 5 in its cast list. -/
def showing : Page :=
  { aPage .composing [] [] with
    cast := some ⟨[⟨0, 5, .portrait 1 (scalerFor 16 16 40 50), some [65]⟩], [], .expired, 0, 0, 1, 0, 0⟩ }

/-- Page 1 COMPOSING, the only live page of a CLOSING job, on a SUPERSEDED template. -/
def lastShowing : State :=
  { withPages [showing] none with
    jobs := [{ job with state := .closing 8, livePages := 1 }]
    templates := State.reset.templates.set 0 (some { sheet with superseded := some 9 })
    entries := [entry none (some (complete 2 2 0)) (some (complete 1 1 1))] }

theorem test_witness_PageReleased_pins :
    casting.templateOf { aPage .gathering [] [] with timer := .expired, cells := [(0, 5)] } = some sheet ∧
    EntryKeysDistinct casting ∧ (([((0 : Nat), (5 : Nat))].map (·.2)).filter (· ≠ 0)).Nodup ∧
    PageIdsDistinct lastShowing ∧ lastShowing.page? 1 = some showing ∧ EntryKeysDistinct lastShowing ∧
    showing.named = [(5, 1)] ∧ (showing.named.map (·.1)).Nodup := by
  unfold EntryKeysDistinct PageIdsDistinct
  decide

/-- R13, R15: a JOB OPEN and a ROSTER that wait, a channel with no entry, and a waiter that stands before the record's own. -/
theorem test_witness_examine : waitingJob.waitOf 0 = some ⟨0, .jobSlot, 20⟩ ∧ waitingJob.waitOf 1 = none ∧
    waitingJob.olderWaiter 1 .jobSlot = true ∧ waitingJob.olderWaiter 0 .jobSlot = false ∧
    (∃ t, judgeJobOpen 0 (jobOpenRecord 7 1 0 1 10) waitingJob = .taken t) ∧
    (∃ k, judgeJobOpen 1 (jobOpenRecord 7 1 0 1 10) waitingJob = .deferred k) ∧
    ∃ r x, judgeRecord 0 waitingHead.chans[(0 : Chan)].front waitingHead = .refused r x :=
  ⟨by decide, by decide, by decide, by decide, ⟨_, rfl⟩, ⟨_, rfl⟩, _, _, rfl⟩

theorem test_witness_TimersExpire : State.reset.gatheringPage = none ∧ (gathering (.running 30)).inReset = false ∧
    (gathering (.running 30)).gatheringPage = some { aPage .gathering [] [] with timer := .running 30, cells := [(0, 5)] } ∧
    (aPage .gathering [] []).hold ≠ 65535 ∧
    (gathering .notStarted).gatheringPage = some { aPage .gathering [] [] with timer := .notStarted, cells := [(0, 5)] } ∧
    State.reset.gates[classIndex .portrait].last = none ∧
    (after (.jobOpen 0 7 0 0 1 1) State.reset).gates[classIndex .channel].last = some 0 := by decide +kernel

/-- The conditions of the statements on what is computed: a mean of 1 at both clamps and between them, a source and a cell at their
least, and a page of 600 × 600. -/
theorem test_witness_computed : 1 ≤ (1 : Nat) ∧ 512 < measuredGain 128 255 ∧ measuredGain 128 255 < 2048 ∧
    measuredGain 32 65 = 512 ∧ (255 : Byte).toNat ≤ (255 : Byte).toNat ∧ 16 ≤ (16 : Nat) ∧
    (scalerFor 16 16 33 1).undersized = true ∧ (scalerFor 16 16 32 32).undersized = false := by decide

theorem test_witness_bands : sheet.Legal ∧ sheet.bandIndex.Pairwise (fun x y => x.rect.y ≤ y.rect.y) :=
  ⟨⟨by decide, by decide, by decide⟩, by decide⟩

/-- A FILL slot over the top left of the page, and a second under it in part. -/
def filled : TemplateBuffer :=
  { sheet with bandIndex := [⟨0, ⟨0, 0, 40, 50⟩, .fill ⟨1, 2, 3⟩⟩, ⟨1, ⟨39, 0, 40, 50⟩, .fill ⟨4, 5, 6⟩⟩] }

/-- A cast without cells. -/
def noCast : Cast := ⟨[], [], .noHold, 0, 0, 0, 0, 0⟩

theorem test_witness_LastSlotPaints : (∀ k ∈ filled.bandSlots 0, k.rect.covers 79 0 = false) ∧
    (⟨1, ⟨39, 0, 40, 50⟩, .fill ⟨4, 5, 6⟩⟩ : Slot) ∈ filled.bandSlots 0 ∧
    (⟨39, 0, 40, 50⟩ : Rect).covers 39 49 = true ∧
    ∀ k' ∈ filled.bandSlots 0, k'.rect.covers 39 49 = true →
      k' = (⟨1, ⟨39, 0, 40, 50⟩, .fill ⟨4, 5, 6⟩⟩ : Slot) ∨ k'.index < 1 := by decide

theorem test_witness_store : storeWf [(3, 1), (7, 2)] = true ∧ storeWf [(7, 2), (3, 1)] = false ∧ storeWf [(3, 0)] = false := by
  decide

theorem test_witness_wire_lists : (templateOf 7 0 600 600 64 [slot0, slot0]).wf = true ∧
    (Instr.page 0 7 1 0 1 0 3 [65] [5, 4294967295]).wf = true := by decide

theorem test_witness_wire : (Instr.linkFrame 3 true [1]).wf = true ∧ (65535 : Nat) < 65536 ∧ (Instr.badMessage 16 0).wf = true ∧
    (Instr.clear 3 7).wf = true ∧ (Instr.clear 3 7).wireRecord = some (3, clearRecord 7) ∧
    (Instr.unknownKind 0 255 7 [1]).wireRecord = some (0, [255, 0, 0, 9, 0, 0, 0, 7, 1]) := by decide

/-- Page 1 PRINTING beside a directory with a filling, a current and no retiring version, a DEMAND at the front of the queue. -/
def working : State :=
  { printing 0 with
    pending := [.start 1]
    entries := [entry (some (filling 8)) (some (complete 1 1 1)) none]
    freeBlocks := [⟨2, 229374⟩] }

/-- What the statements on every step suppose, all of it in one state from which a step is taken. -/
theorem test_witness_StepKeeps : StoreCanonical working ∧ QueueBounded working ∧ WaitingDistinct working ∧
    (∀ c ∈ working.pending, c.wf = true) ∧ ChannelsLegal working ∧ ReadyJudged working ∧ SettingsLegal working ∧
    TablesLegal working ∧ JobsLegal working ∧ EntriesLegal working ∧ GainsLegal working ∧ BlocksBalance working ∧
    PageIdsDistinct working ∧ BuffersBalance working ∧ PagesLegal working ∧ HeadBounded working ∧ StoreJudged working ∧
    ∃ t, step working = .next t := by
  refine ⟨by unfold StoreCanonical; decide, by unfold QueueBounded; decide, by unfold WaitingDistinct; decide, by decide,
    ?_, by unfold ReadyJudged; decide, ?_, ?_, ?_, ?_, ?_, by unfold BlocksBalance; decide, by unfold PageIdsDistinct; decide,
    by unfold BuffersBalance; decide +kernel, ?_, by unfold HeadBounded; decide, judged_of (by decide), _, rfl⟩
  · intro ch
    fin_cases ch <;> exact ⟨by decide, by decide, by decide, by decide, by decide⟩
  · exact ⟨by decide, by decide, by decide, by decide, by intro cls; cases cls <;> decide, by decide⟩
  · constructor
    · intro i t h
      fin_cases i <;> first
        | (cases h; exact ⟨by decide, by decide, by decide⟩)
        | cases h
    · intro i m h
      fin_cases i <;> cases h
  · exact ⟨by decide, by decide, by decide, by decide⟩
  · refine ⟨by decide, by decide, ?_⟩
    intro e he name hn
    cases List.mem_singleton.mp he
    cases hn
  · intro e he v hv mean gain tag hs
    cases List.mem_singleton.mp he
    simp [entry, Entry.versionList, newEntry] at hv
    rcases hv with rfl | rfl
    · cases hs
    · cases hs
      decide
  · refine ⟨by decide, by decide, ?_, by decide⟩
    intro p hp title ht
    cases List.mem_singleton.mp hp
    cases ht

/-! ## One step of each command -/

set_option maxRecDepth 20000

/-- R1, R3: a byte of a record waits in the buffer; in RESYNC a frame without SYNC is dropped. -/
theorem test_linkFrame : (after (.linkFrame 0 true [1]) State.reset).chans[(0 : Chan)].buffer = [1] ∧
    (after (.linkFrame 0 false [1]) inResync).chans[(0 : Chan)].dropped = 1 := by decide

/-- R5: a SYNC frame ends RESYNC, and RESYNC-DONE carries the tag of the CHANNEL RESET. -/
theorem test_linkFrame_sync : (after (.linkFrame 0 true [1]) inResync).chans[(0 : Chan)].mode = .active ∧
    (after (.linkFrame 0 true [1]) inResync).returnChannel = some ⟨.notice ⟨.resyncDone, 7, 0, [.two 0]⟩, false⟩ := by decide

/-- R7: a record length of 7 is a framing error; the channel enters RESYNC. -/
theorem test_framing : (after (.linkFrame 0 true [1, 0, 0, 7]) State.reset).chans[(0 : Chan)].framing = true ∧
    (after (.linkFrame 0 true [1, 0, 0, 7]) State.reset).chans[(0 : Chan)].mode = .resync := by decide

/-- R21. -/
theorem test_masterReset : (after .masterReset (opened 8 1)).chans[(0 : Chan)].binding = .unbound ∧
    (after .masterReset (opened 8 1)).entries = [] ∧ (after .masterReset (sendingBand 0 true)).out = [.bandAborted] := by decide

/-- R181: the READY frame after a reset. -/
theorem test_resetInputHigh : (after .resetInputHigh resetLow).out.map Output.bytes = [[0xCF]] := by decide

/-- R8: REFUSED with UNKNOWN-KIND, which is reason 1. -/
theorem test_unknownKind : (after (.unknownKind 1 200 7 []) State.reset).returnChannel =
    some ⟨.notice ⟨.refused, 7, 0, [.two 1, .two 200, .two 1]⟩, false⟩ := by decide

/-- R22: a target of 250 is stored as 224; a window that meets another at one key is refused. -/
theorem test_jobOpen : (after (.jobOpen 0 7 2 250 11 20) withJob).jobs =
      [job, { id := 2, base := 11, limit := 20, target := 224, state := .opened, livePages := 0 }] ∧
    (after (.jobOpen 0 7 2 0 10 20) withJob).chans[(0 : Chan)].refused = 1 := by decide

/-- R25, R28: a job without live pages completes at once. -/
theorem test_jobClose : (after (.jobClose 0 7 1) (withEntry none (some (complete 2 0 0)) none)).jobs = [] ∧
    (after (.jobClose 0 7 1) (withEntry none (some (complete 2 0 0)) none)).returnChannel =
      some ⟨.notice ⟨.jobClosed, 7, 1, [.two 1, .four 1]⟩, false⟩ := by decide

/-- R31: a character outside 32 to 126 becomes a space. -/
theorem test_roster : (after (.roster 0 7 5 2 [65, 10]) withJob).entries =
    [{ newEntry 5 1 with name := some [65, 32], withholdName := true, nameAltered := true }] := by decide

/-- R44, R64: 16 × 16 takes one block, and the default window is the central half. -/
theorem test_portraitHead : (after (head 2 16 16) withJob).entries =
      [entry (some { filling 0 with sum := 0, count := 0 }) none none] ∧
    (after (head 2 16 16) withJob).chans[(0 : Chan)].binding = .opened 5 0 := by decide

/-- R11: a refused head leaves the binding SKIP. -/
theorem test_portraitHead_skip : (after (head 2 15 16) withJob).chans[(0 : Chan)].binding =
    .skipping 5 := by decide

/-- R43, R55: the open portrait's block brings the count to the recovery level before the head takes one again. -/
theorem test_portraitHead_breaks : (after (head 2 16 16)
      { opened 8 1 with storeLow := true, lowMark := 100, freeBlocks := [⟨3, 1123⟩] }).storeLow = false ∧
    (after (head 2 16 16) (opened 8 1)).chans[(0 : Chan)].binding = .opened 5 0 := by decide

/-- R11, R43: a HEAD of key 6 whose flags are not 0 is refused; key 5 is open no longer, and key 6 is skipped. -/
theorem test_linkFrame_refusedHead :
    let s := after (.linkFrame 0 false ((portraitHeadRecord 7 6 1 16 16 0 0 0 0 0).set 1 1)) (opened 8 1)
    s.chans[(0 : Chan)].binding = .skipping 6 ∧ s.entries = [entry none none none] := by decide

/-- R47, R65: eight lines of grey 100 add 4 window lines of 8 pixels to the count. -/
theorem test_portraitStrip :
    (after (.portraitStrip 0 7 5 1 8 (List.replicate 384 100)) (opened 8 1)).entries =
      [entry (some { filling 16 with sum := 6400 + 3200, count := 64 + 32 }) none none] := by decide +kernel

/-- R51, R68: mean 100 towards 128 gives the gain 1,311. -/
theorem test_portraitEnd : (after (.portraitEnd 0 6 5 16) (opened 16 2)).entries =
    [entry none (some { complete 2 0 0 with sum := 12800, count := 128 }) none] := by decide

/-- R75, R80: the lowest buffer takes it, the width raised to 600 and the band height defaulted to 64. -/
theorem test_template : ((after (templateOf 7 1 5 600 63 [slot0]) idle).templates[(1 : Fin 12)].map
    fun t => (t.number, t.width, t.bandHeight, t.sizeClamped, t.bandDefaulted, t.bandIndex.length)) =
    some (1, 600, 64, true, true, 1) := by decide

/-- R85: the metrics clamped. -/
theorem test_font : (after (.font 0 7 1 60 9 0) State.reset).fonts[(1 : Fin 2)].metrics = some ⟨48, 8, 1⟩ := by decide

/-- R86: stored; a bitmap of the wrong size is BAD-GLYPH at step 6. -/
theorem test_glyph : (after (.glyph 0 7 0 65 9 (List.replicate 16 255)) withFont).fonts[(0 : Fin 2)].glyphs.length = 1 ∧
    (after (.glyph 0 7 0 65 9 (List.replicate 15 255)) withFont).returnChannel =
      some ⟨.notice ⟨.refused, 7, 0, [.two 0, .two 34, .two 16, .two 6]⟩, false⟩ := by decide

/-- R91, R95, R117: a page on an idle part is taken; without a subject it starts at once and its first band is composed. -/
theorem test_page : ((after (pageOf 2 []) idle).pages.map fun p => (p.id, p.state, p.bands)) =
      [(2, .composing, [⟨0, [1], .composing⟩])] ∧
    ((after (pageOf 2 [5]) idle).pages.map fun p => (p.state, p.timer)) = [(.gathering, .running 0)] := by decide

/-- R104: a page that is COMPOSING goes; one that is PRINTING is too late. -/
theorem test_pageCancel : (after (.pageCancel 0 7 1) locked).pages = [] ∧
    (after (.pageCancel 0 7 1) (printing 0)).chans[(0 : Chan)].refused = 1 := by decide

/-- R2, R175: clamped to 12,288, and the indication still asserted at a full free space. -/
theorem test_setReadyWatermark : (after (.setReadyWatermark 0 7 2 99999) State.reset).chans[(2 : Chan)].watermark = 12288 := by
  decide

theorem test_setStallLimit : (after (.setStallLimit 0 7 99) State.reset).stallLimit = 100 := by decide

theorem test_setGlobalTarget : (after (.setGlobalTarget 0 7 225) State.reset).globalTarget = 224 := by decide

/-- R176: the acknowledgement carries the code 7, both values and the clamped flag. -/
theorem test_setLead : (after (.setLead 0 7 0) State.reset).returnChannel.map Transfer.bytes =
    some [130, 0, 0, 28, 0, 0, 0, 7, 7, 1, 0, 0, 0, 0, 0, 0, 0, 7, 1, 0, 0, 0, 0, 0, 0, 0, 0, 1] := by decide

theorem test_setInterval : (after (.setInterval 0 7 .sheet 65536) State.reset).gates[(4 : Fin 8)].interval = 65535 := by decide

/-- R55, R56: a mark at the whole pool brings the low state about where one block is in use. -/
theorem test_setStoreLowMark : (after (.setStoreLowMark 0 7 229376) (withEntry none (some (complete 2 0 0)) none)).storeLow =
    true := by decide

/-- R173: a STATUS reply is PRESENT with operand 0. -/
theorem test_queryStatus : ((after (.queryStatus 0 7) State.reset).returnChannel.map fun t =>
    (t.bytes.take 2, (t.bytes.drop 4).take 12)) = some ([130, 0], [0, 0, 0, 7, 1, 1, 0, 0, 0, 0, 0, 0]) := by decide

/-- R171: channel 4 is refused. -/
theorem test_queryChannel : (after (.queryChannel 0 7 4) State.reset).chans[(0 : Chan)].refused = 1 ∧
    (after (.queryChannel 0 7 3) State.reset).chans[(0 : Chan)].taken = 1 := by decide

/-- R171: what is not held is answered ABSENT, in 16 bytes; an unmapped template number is PRESENT. -/
theorem test_queries_absent :
    (after (.queryEntry 0 7 5) State.reset).returnChannel.map Transfer.bytes =
      some [130, 0, 0, 16, 0, 0, 0, 7, 3, 2, 0, 0, 0, 0, 0, 5] ∧
    (after (.queryPage 0 7 5) State.reset).returnChannel.map Transfer.bytes =
      some [130, 0, 0, 16, 0, 0, 0, 7, 4, 2, 0, 0, 0, 0, 0, 5] ∧
    (after (.queryJob 0 7 5) State.reset).returnChannel.map Transfer.bytes =
      some [130, 0, 0, 16, 0, 0, 0, 7, 5, 2, 0, 0, 0, 0, 0, 5] ∧
    (after (.queryTemplate 0 7 5) State.reset).returnChannel.map (fun t => (t.bytes.drop 8).take 2) = some [6, 1] := by decide

/-- R172, 11.4: the item codes of a page in GATHERING, its readiness, its blocking key and its hold time last. -/
theorem test_queryPage_codes : let s := gathering (.running 30)
    (s.pages.map fun p => ((pageContents s p).map (·.1), (pageContents s p).drop 15)) =
      [(List.range' 1 18, [(16, [.two 0]), (17, [.four 5]), (18, [.two 1, .four 8])])] := by decide

/-- R35, R99: a composition start pins the version it shows. -/
theorem test_compositionStart_pins :
    ((casting.pages.map fun p => (compositionStart p casting).entries).map fun l => l.map fun e => e.current.map (·.pins)) =
      [[some 1]] := rfl

/-- R36, R82, R107: the last pin on a retiring version frees it, and that on a SUPERSEDED buffer frees the buffer. -/
theorem test_release_pins : let t := releasePage 0 1 (fun _ s => s) lastShowing
    t.templates[(0 : Fin 12)] = none ∧ t.entries = [] ∧ t.jobs = [] ∧
    (releasePage 0 1 (fun _ s => s) { lastShowing with jobs := [] }).entries =
      [entry none (some (complete 2 2 0)) none] := ⟨rfl, rfl, rfl, rfl⟩

/-- R129, R134, 11.4: a caption's setting stands last; a SENT band's state and mark are two values. -/
theorem test_queryPage_members :
    captionItems { slot := 4, text := some [65], layout := some (.set true 1 1 20 30 9) } =
      [.text [65], .two 1, .two 1, .two 20, .two 30, .two 9, .two 2] ∧
    recordItems (some { index := 3, buffers := [0], state := .sentNot }) = [.two 3, .two 2] := by decide

/-- R174. -/
theorem test_flagsClear :
    let s := { State.reset with chans := State.reset.chans.set 1 { Channel.reset with overflow := true, framing := true } }
    (after (.flagsClearOverflow 0 7 1) s).chans[(1 : Chan)] = { Channel.reset with framing := true } ∧
    (after (.flagsClearFraming 0 7 1) s).chans[(1 : Chan)] = { Channel.reset with overflow := true } ∧
    (after (.flagsClearStoreLowSeen 0 7) { State.reset with lowSeen := true }).lowSeen = false := by decide

/-- R170: a held entry behind a shut gate goes. -/
theorem test_noticeFlush : (after (.noticeFlush 0 7) { State.reset with
      returnQueue := [⟨.notice ⟨.rosterTaken, 3, 5, []⟩, false⟩]
      gates := State.reset.gates.set 1 { last := some 0, interval := 1000, overrun := false } }).returnChannel =
    some ⟨.notice ⟨.rosterTaken, 3, 5, []⟩, false⟩ := by decide

/-- R12: the named channel enters RESYNC and keeps the tag. -/
theorem test_channelReset : (after (.channelReset 0 7 3) State.reset).chans[(3 : Chan)].mode = .resync ∧
    (after (.channelReset 0 7 3) State.reset).chans[(3 : Chan)].resetTag = 7 := by decide

/-- R20, R161: the tables go, and the id of the page at the press is told to it and kept for its late verdict. -/
theorem test_clear : (after (.clear 0 7) (printing 0)).pages = [] ∧ (after (.clear 0 7) (printing 0)).purge = [1] ∧
    (after (.clear 0 7) (printing 0)).chans[(0 : Chan)].taken = 1 ∧
    (after (.clear 0 7) (opened 8 1)).chans[(0 : Chan)].binding = .skipping 5 := by decide

/-- R152. -/
theorem test_start : (after (.start 1) offered).offer = some ⟨1, true⟩ ∧ (after (.start 1) offered).cursor = some 0 ∧
    (after (.start 2) offered).headCounters.protocol = 1 := by decide

/-- A page of 4 × 4 in bands of 2 lines. -/
def tiny (t : TemplateBuffer) (s : State) : State :=
  { s with templates := s.templates.set 0 (some { t with width := 4, height := 4, bandHeight := 2 }) }

/-- R155: band 1 has no record, so a white filler goes; it spoils the page and is an underrun. -/
theorem test_demand : (after .demand (tiny sheet (printing 1))).out.head? =
      some (.bandBegin 1 1 2 4 true true true (List.replicate 24 255)) ∧
    (after .demand (tiny sheet (printing 1))).headCounters.underruns = 1 := by decide

/-- R157. -/
theorem test_done : (after (.done 1) inPath).pages = [] ∧ (after (.done 1) inPath).headCounters.accepted = 1 ∧
    (after (.done 2) inPath).headCounters.protocol = 1 := by decide

/-- R158, R159: the page goes to REPLAY, is offered again at once for its second attempt, and keeps its band. -/
theorem test_fault : (after (.fault 1) { inPath with jobs := [{ job with livePages := 1 }] }).headCounters.faults = 1 ∧
    ((after (.fault 1) inPath).pages.map fun p => (p.attempt, p.bands)) = [(2, [⟨0, [0], .composed⟩])] := by decide

/-- R160. -/
theorem test_restart : (after .restart inPath).path = [] ∧ (after .restart inPath).headCounters.restarts = 1 := by decide

/-- R182: the type byte and reason 7. -/
theorem test_badMessage : (after (.badMessage 22 9) State.reset).returnChannel =
    some ⟨.notice ⟨.headProtocol, 0, 9, [.two 22, .two 7]⟩, false⟩ := by decide

/-- R164, R168: a notice is lost with 56 held, and its posting finds the channel IDLE, so the oldest goes. -/
theorem test_badMessage_lost :
    let held : Held := ⟨.notice ⟨.stallDiscard, 3, 5, []⟩, false⟩
    let s := after (.badMessage 22 9) { State.reset with returnQueue := List.replicate 56 held }
    s.returnQueue = List.replicate 55 held ∧ s.returnChannel = some ⟨held.item, false⟩ ∧
    s.gates[(4 : Fin 8)].overrun = true := by decide

/-- R96: a page that leaves GATHERING has no permit, and its timer has stopped. -/
theorem test_leaveGathering :
    let p := leaveGathering { aPage .gathering [] [] with permit := true, timer := .running 3 }
    p.permit = false ∧ p.timer = .notStarted ∧ p.state = .composing := by decide

/-- R119, R121: band 0 of a 4 × 4 page with a FILL slot over its lower right is composed into buffer 0. -/
theorem test_bandCompositionComplete :
    let s := tiny { sheet with bandIndex := [⟨0, ⟨3, 1, 1, 2⟩, .fill ⟨1, 2, 3⟩⟩] }
      { withPages [{ aPage .composing [⟨0, [0], .composing⟩] [] with cast := some noCast }] none with
        compositor := .busy ⟨1, 0, false⟩ 1 }
    readFrom 24 0 (after .bandCompositionComplete s).store = List.replicate 21 255 ++ [1, 2, 3] ∧
    ((after .bandCompositionComplete s).pages.map fun p => (p.firstCount, p.bands)) =
      [(1, [⟨0, [0], .composed⟩, ⟨1, [1], .composing⟩])] := by decide

/-- R139, R154: the last band's record is kept, and the page enters the path. -/
theorem test_bandSendingEnd : (after .bandSendingEnd (sendingBand 9 true)).path = [1] ∧
    ((after .bandSendingEnd (sendingBand 9 true)).pages.map fun p => (p.state, p.bands)) =
      [(.inPath, [⟨9, [0], .sent⟩])] := by decide

/-- R168: the next held entry goes as the transfer ends. -/
theorem test_returnTransferEnd : (after .returnTransferEnd { State.reset with
      returnChannel := some ⟨.reply (setAck 1 7 8 8), false⟩
      returnQueue := [⟨.reply (setAck 2 7 9 9), false⟩] }).returnChannel = some ⟨.reply (setAck 2 7 9 9), false⟩ := by decide

/-- R16, R17: the waiting record goes, and a head leaves SKIP. -/
theorem test_stallLimitExpiry : (after (.stallLimitExpiry 0) waitingJob).waiting = [] ∧
    (after (.stallLimitExpiry 0) waitingJob).chans[(0 : Chan)].discarded = 1 ∧
    (after (.stallLimitExpiry 0) waitingHead).chans[(0 : Chan)].binding = .skipping 5 := by decide

/-- R96: the permit is set at 5 ms past the start. -/
theorem test_holdExpiry : ((after .holdExpiry (gathering (.running 30))).pages.map (·.permit)) = [true] ∧
    (after .holdExpiry (gathering (.running 30))).now = 80 := by decide

/-- R167: the gate opens as its interval ends. -/
theorem test_gateExpiry : (after (.gateExpiry .roster) { State.reset with
      returnQueue := [⟨.notice ⟨.rosterTaken, 3, 5, []⟩, false⟩]
      gates := State.reset.gates.set 1 { last := some 0, interval := 1000, overrun := false } }).returnChannel =
    some ⟨.notice ⟨.rosterTaken, 3, 5, []⟩, false⟩ := by decide

end Sys2Proof.Tests
end

section
/-! PROOF. Functions of the tables and of the press that leave the channels and the waiting list. -/

namespace Sys2Proof.Machine

/-! ## What leaves the channels and the waiting list -/

theorem SameLink.of_ite {s t u : State} {p : Prop} [Decidable p] (ht : SameLink s t) (hu : SameLink s u) :
    SameLink s (if p then t else u) := by
  split
  · exact ht
  · exact hu

theorem storeReply_sameLink (r : Reply) (s : State) : SameLink s (storeReply r s) :=
  ⟨storeReply_chans .., storeReply_waiting ..⟩

theorem releaseRule_sameLink (s : State) : SameLink s (releaseRule s) := ⟨releaseRule_chans .., releaseRule_waiting ..⟩

theorem failPortrait_sameLink (key : Nat) (reason : FailReason) (tag : Nat) (extra : List Item) (s : State) :
    SameLink s (failPortrait key reason tag extra s) := by
  unfold failPortrait
  split
  · exact .rfl' s
  · split
    · exact .rfl' s
    · exact notify_sameLink .portraitFailed _ _ _ (returnBlocks _ (setEntry _ s))

theorem withEntry_sameLink (key jobId : Nat) (s : State) : SameLink s (withEntry key jobId s) := by
  unfold withEntry
  split
  · exact .rfl' s
  · exact ⟨rfl, rfl⟩

theorem reportReady_sameLink (key : Nat) (v : Version) (r : Option (Nat × Bool)) (s : State) :
    SameLink s (reportReady key v r s) := by
  unfold reportReady
  split
  · exact .rfl' s
  · split
    · exact notify_sameLink ..
    · exact (notify_sameLink ..).trans (notify_sameLink ..)

theorem takeRole_sameLink (e : Entry) (v : Version) (s : State) : SameLink s (takeRole e v s) := by
  unfold takeRole
  split
  · exact ⟨rfl, rfl⟩
  · exact reportReady_sameLink _ _ _ (returnBlocks _ (setEntry _ s))

theorem promote_sameLink (key : Nat) (s : State) : SameLink s (promote key s) := by
  unfold promote
  split
  · exact .rfl' s
  · split
    · exact .rfl' s
    · exact takeRole_sameLink ..

theorem unpinVersion_sameLink (tag key number : Nat) (s : State) : SameLink s (unpinVersion tag key number s) := by
  unfold unpinVersion
  split
  · exact .rfl' s
  · split
    · refine SameLink.of_ite ?_ ⟨rfl, rfl⟩
      exact SameLink.trans (notify_sameLink .versionRetired tag key [.two number] (returnBlocks _ (setEntry _ s)))
        (promote_sameLink key _)
    · split
      · exact SameLink.of_ite (promote_sameLink key (setEntry _ s)) ⟨rfl, rfl⟩
      · exact .rfl' s

theorem completeJob_sameLink (j : Job) (s : State) : SameLink s (completeJob j s) := by
  unfold completeJob
  split
  · exact .rfl' s
  · refine SameLink.of_ite ?_ (.rfl' s)
    let emptied : State :=
      { s with entries := s.entries.filter fun e => !j.holds e.key, jobs := removeFirst (·.id = j.id) s.jobs }
    exact SameLink.trans (foldl_sameLink (fun s runs => returnBlocks runs s) (fun s runs => ⟨rfl, rfl⟩) _ emptied)
      (notify_sameLink .jobClosed _ _ _ (wakeUp _))

theorem dropLivePage_sameLink (id : Nat) (s : State) : SameLink s (dropLivePage id s) := by
  unfold dropLivePage
  split
  · exact .rfl' s
  · exact completeJob_sameLink _ (setJob _ s)

theorem unpinTemplate_sameLink (i : Fin 12) (s : State) : SameLink s (unpinTemplate i s) := by
  unfold unpinTemplate
  split
  · exact .rfl' s
  · split
    · exact ⟨rfl, rfl⟩
    · exact SameLink.of_ite (notify_sameLink .templateFreed _ _ _ (wakeUp (setTemplate i none s))) ⟨rfl, rfl⟩

theorem unmapPrevious_sameLink (tag : Nat) (previous : Option (Fin 12)) (s : State) :
    SameLink s (unmapPrevious tag previous s).1 := by
  unfold unmapPrevious
  split
  · exact .rfl' s
  · split
    · exact .rfl' s
    · split <;> exact ⟨rfl, rfl⟩

theorem loadTemplate_sameLink (i : Fin 12) (x : SettledTemplate) (s : State) : SameLink s (loadTemplate i x s) := by
  unfold loadTemplate
  dsimp only
  have h1 := unmapPrevious_sameLink x.buffer.tag (s.mappedBuffer x.buffer.number) s
  generalize unmapPrevious x.buffer.tag (s.mappedBuffer x.buffer.number) s = u at h1
  have h2 : SameLink u.1 (setTemplate i (some x.buffer) u.1) := ⟨rfl, rfl⟩
  have h3 := (h1.trans h2).trans (notify_sameLink .templateLoaded x.buffer.tag x.buffer.number
    [.two i, .two x.carried, .two x.kept, .two x.clipped, .two x.defaulted, .two x.droppedEmpty, .two x.droppedUnpaired,
      .two x.buffer.bandCount, flagItem [x.buffer.sizeClamped, x.buffer.bandDefaulted], .two u.2] _)
  split
  · exact SameLink.of_ite (h3.trans (notify_sameLink ..)) h3
  · exact h3

theorem pinTemplate_sameLink (i : Fin 12) (s : State) : SameLink s (pinTemplate i s) := by
  unfold pinTemplate
  split
  · exact .rfl' s
  · exact ⟨rfl, rfl⟩

theorem takePage_sameLink (b : List Byte) (j : Job) (i : Fin 12) (t : TemplateBuffer) (s : State) :
    SameLink s (takePage b j i t s) := by
  unfold takePage
  dsimp only
  refine SameLink.trans ?_ (fillGathering_sameLink _)
  refine SameLink.trans ?_ (notify_sameLink ..)
  refine SameLink.trans (t := pinTemplate i _) (SameLink.trans ?_ (pinTemplate_sameLink i _)) ⟨rfl, rfl⟩
  exact ⟨rfl, rfl⟩

theorem takeRoster_sameLink (key tag publication : Nat) (name : List Byte) (s : State) :
    SameLink s (takeRoster key tag publication name s) := by
  unfold takeRoster
  split
  · exact .rfl' s
  · dsimp only
    exact SameLink.of_ite ((notify_sameLink .rosterTaken _ _ _ (setEntry _ s)).trans (notify_sameLink ..))
      (notify_sameLink .rosterTaken _ _ _ (setEntry _ s))

theorem releasePage_sameLink (tag id : Nat) (announce : Page → State → State) (s : State)
    (h : ∀ p s, SameLink s (announce p s)) : SameLink s (releasePage tag id announce s) := by
  unfold releasePage
  split
  · exact .rfl' s
  · dsimp only
    refine SameLink.trans ?_ (fillGathering_sameLink _)
    refine SameLink.trans ?_ (t := dropLivePage _ _) ⟨rfl, rfl⟩
    refine SameLink.trans ?_ (dropLivePage_sameLink _ _)
    refine SameLink.trans (t := unpinTemplate _ _) ?_ ⟨rfl, rfl⟩
    refine SameLink.trans ?_ (unpinTemplate_sameLink _ _)
    exact (h _ s).trans (foldl_sameLink _ (fun s (k : Nat × Nat) => unpinVersion_sameLink tag k.1 k.2 s) _ _)

/-! ## The press and the compositor -/

theorem modCounters_sameLink (f : HeadCounters → HeadCounters) (s : State) : SameLink s (modCounters f s) := ⟨rfl, rfl⟩

theorem headProtocol_sameLink (type id : Nat) (reason : HeadReason) (s : State) :
    SameLink s (headProtocol type id reason s) := notify_sameLink .headProtocol _ _ _ (modCounters _ s)

theorem pressStart_sameLink (id : Nat) (s : State) : SameLink s (pressStart id s) := by
  unfold pressStart
  split
  · exact .rfl' s
  · split
    · exact headProtocol_sameLink ..
    · split
      · exact headProtocol_sameLink ..
      · rename_i slot _ _
        exact SameLink.of_ite (headProtocol_sameLink ..)
          (modPage_sameLink id _ { s with offer := some { slot with printing := true }, cursor := some 0 })

theorem sendFiller_sameLink (p : Page) (t : TemplateBuffer) (b record : Nat) (s : State) :
    SameLink s (sendFiller p t b record s) := notify_sameLink .underrun _ _ _ (modCounters _ (beginSending p t b false _ s))

theorem pressDemand_sameLink (s : State) : SameLink s (pressDemand s) := by
  unfold pressDemand
  split
  · exact SameLink.of_ite (headProtocol_sameLink ..) (.rfl' s)
  · split
    · exact headProtocol_sameLink ..
    · split
      · exact .rfl' s
      · dsimp only
        split
        · exact SameLink.of_ite ⟨rfl, rfl⟩ (sendFiller_sameLink ..)
        · exact sendFiller_sameLink ..

theorem leaveSlot_sameLink (id : Nat) (s : State) : SameLink s (leaveSlot id s) := by
  unfold leaveSlot
  split
  · exact SameLink.of_ite ⟨rfl, rfl⟩ (.rfl' s)
  · exact .rfl' s

theorem retainBand_sameLink (id b : Nat) (s : State) : SameLink s (retainBand id b s) := by
  unfold retainBand
  split
  · exact .rfl' s
  · split
    · exact .rfl' s
    · exact SameLink.of_ite ⟨rfl, rfl⟩ (dropBand_sameLink ..)

theorem endSending_sameLink (x : Sending) (s : State) : SameLink s (endSending x s) := by
  unfold endSending
  dsimp only
  have h1 : SameLink s (if x.real = true then retainBand x.page x.band (emit .bandEnd { s with sending := none })
      else emit .bandEnd { s with sending := none }) :=
    SameLink.of_ite (retainBand_sameLink _ _ (emit .bandEnd { s with sending := none })) ⟨rfl, rfl⟩
  generalize (if x.real = true then retainBand x.page x.band (emit .bandEnd { s with sending := none })
      else emit .bandEnd { s with sending := none }) = u at h1
  refine h1.trans ?_
  split
  · exact .rfl' u
  · refine SameLink.of_ite ?_ (.rfl' u)
    split
    · exact SameLink.of_ite (SameLink.trans (leaveSlot_sameLink x.page u) ⟨rfl, rfl⟩) (.rfl' u)
    · exact .rfl' u

theorem pressDone_sameLink (id : Nat) (s : State) : SameLink s (pressDone id s) := by
  unfold pressDone
  refine SameLink.of_ite ⟨rfl, rfl⟩ (SameLink.of_ite ?_ (SameLink.of_ite (headProtocol_sameLink ..) (headProtocol_sameLink ..)))
  exact releasePage_sameLink 0 id _ (modCounters _ { s with path := s.path.tail }) fun p s => notify_sameLink ..

theorem stopSending_sameLink (ids : List Nat) (s : State) : SameLink s (stopSending ids s) := by
  unfold stopSending
  split
  · exact SameLink.of_ite ⟨rfl, rfl⟩ (.rfl' s)
  · exact .rfl' s

theorem returnPage_sameLink (acc : State × Nat × Nat) (id : Nat) : SameLink acc.1 (returnPage acc id).1 := by
  obtain ⟨s, n, m⟩ := acc
  unfold returnPage
  dsimp only
  split
  · exact .rfl' s
  · have h1 := leaveSlot_sameLink id { s with path := s.path.filter (· ≠ id) }
    split
    · exact SameLink.trans h1 (setPage_sameLink _ _)
    · exact SameLink.trans h1 (releasePage_sameLink 0 id _ _ fun p s => notify_sameLink ..)

theorem returnPages_sameLink (ids : List Nat) (s : State) : SameLink s (returnPages ids s).1 := by
  have run : ∀ (l : List Nat) (acc : State × Nat × Nat), SameLink acc.1 (l.foldl returnPage acc).1 := by
    intro l
    induction l with
    | nil => exact fun acc => .rfl' _
    | cons id rest ih => exact fun acc => (returnPage_sameLink acc id).trans (ih _)
  exact (stopSending_sameLink ids s).trans (run ids _)

theorem pressFault_sameLink (id : Nat) (s : State) : SameLink s (pressFault id s) := by
  unfold pressFault
  refine SameLink.of_ite ⟨rfl, rfl⟩ ?_
  split
  · exact headProtocol_sameLink ..
  · refine SameLink.of_ite ?_ (headProtocol_sameLink ..)
    exact SameLink.trans (returnPages_sameLink _ (modCounters _ s)) (notify_sameLink ..)

theorem pressRestart_sameLink (s : State) : SameLink s (pressRestart s) := by
  unfold pressRestart
  have h := returnPages_sameLink ((s.pages.filter (·.state.atPress)).map (·.id))
    (modCounters (fun c => { c with restarts := bump c.restarts }) s)
  exact SameLink.trans h (notify_sameLink ..)

theorem purgePress_sameLink (s : State) : SameLink s (purgePress s) := by
  unfold purgePress
  have stop : SameLink s (match s.sending with
      | some _ => emit .bandAborted { s with sending := none }
      | none => s) := by
    split <;> exact ⟨rfl, rfl⟩
  have run := foldl_sameLink (fun s id => emit (.purge id) s) (fun s id => ⟨rfl, rfl⟩)
    (s.path ++ (s.offer.map (·.page)).toList) (match s.sending with
      | some _ => emit .bandAborted { s with sending := none }
      | none => s)
  exact (stop.trans run).trans ⟨rfl, rfl⟩

theorem completeBand_sameLink (item : WorkItem) (s : State) : SameLink s (completeBand item s) := by
  unfold completeBand
  dsimp only
  split
  · exact ⟨rfl, rfl⟩
  · split <;> exact ⟨rfl, rfl⟩

end Sys2Proof.Machine
end

section
/-! PROOF. Every ready indication stands at its level after every step (R2): a change of a buffer or a watermark is followed, in
the same event, by the evaluation of its channel's indication. -/

namespace Sys2Proof.Machine

/-- The channel's ready indication stands at its level (R2). -/
def Channel.ReadyAt (c : Channel) : Prop := c.ready = c.readyLevel

/-- Every channel whose ready indication stands at its level in `s` has it there in `t`. -/
structure ReadyKept (s t : State) : Prop where
  at_level : ∀ ch : Chan, s.chans[ch].ReadyAt → t.chans[ch].ReadyAt

theorem ReadyKept.rfl' (s : State) : ReadyKept s s := ⟨fun _ h => h⟩

theorem ReadyKept.trans {s t u : State} (h : ReadyKept s t) (k : ReadyKept t u) : ReadyKept s u :=
  ⟨fun ch hs => k.at_level ch (h.at_level ch hs)⟩

theorem ReadyKept.same {s t : State} (h : t.chans = s.chans) : ReadyKept s t := ⟨fun ch hs => by rw [h]; exact hs⟩

theorem SameLink.ready {s t : State} (h : SameLink s t) : ReadyKept s t := .same h.1

/-- Only the channels count. -/
theorem ReadyKept.of_chans {s s' t t' : State} (h : ReadyKept s t) (hs : s'.chans = s.chans) (ht : t'.chans = t.chans) :
    ReadyKept s' t' := ⟨fun ch hc => by rw [ht]; exact h.at_level ch (by rw [← hs]; exact hc)⟩

theorem ReadyKept.of_ite {s t u : State} {p : Prop} [Decidable p] (ht : ReadyKept s t) (hu : ReadyKept s u) :
    ReadyKept s (if p then t else u) := by
  split
  · exact ht
  · exact hu

theorem foldl_readyKept {α : Type} (f : State → α → State) (h : ∀ s a, ReadyKept s (f s a)) (l : List α) (s : State) :
    ReadyKept s (l.foldl f s) := by
  induction l generalizing s with
  | nil => exact .rfl' s
  | cons a rest ih => exact (h s a).trans (ih _)

/-- A change of a channel's other items leaves its ready indication at its level. -/
theorem modChan_readyKept (ch : Chan) (f : Channel → Channel) (s : State) (h : ∀ c : Channel, c.ReadyAt → (f c).ReadyAt) :
    ReadyKept s (modChan ch f s) := by
  refine ⟨fun c hc => ?_⟩
  by_cases e : c = ch
  · subst e; rw [modChan_self]; exact h _ hc
  · rw [modChan_other f s e]; exact hc

theorem setBinding_readyKept (ch : Chan) (b : Binding) (s : State) : ReadyKept s (setBinding ch b s) :=
  modChan_readyKept ch _ s fun _ h => h

/-- An evaluated ready indication stands at its level (R2). -/
theorem evalReady_readyAt (ch : Chan) (s : State) : (evalReady ch s).chans[ch].ReadyAt := by
  obtain ⟨h, e⟩ | ⟨-, e⟩ := evalReady_cases ch s
  · rw [e]; exact h
  · rw [e, sendReady_chans, modChan_self]; rfl

theorem evalReady_other {ch c : Chan} (s : State) (h : c ≠ ch) : (evalReady ch s).chans[c] = s.chans[c] := by
  obtain ⟨-, e⟩ | ⟨-, e⟩ := evalReady_cases ch s
  · rw [e]
  · rw [e, sendReady_chans, modChan_other _ _ h]

/-- The evaluation of a channel's indication makes up for any change of that channel. -/
theorem evalReady_restores {ch : Chan} {s t : State} (h : ∀ c, c ≠ ch → s.chans[c].ReadyAt → t.chans[c].ReadyAt) :
    ReadyKept s (evalReady ch t) := by
  refine ⟨fun c hc => ?_⟩
  by_cases e : c = ch
  · subst e; exact evalReady_readyAt c t
  · rw [evalReady_other t e]; exact h c e hc

theorem evalReady_modChan_readyKept (ch : Chan) (f : Channel → Channel) (s : State) :
    ReadyKept s (evalReady ch (modChan ch f s)) :=
  evalReady_restores fun c hne hc => by rw [modChan_other f s hne]; exact hc

theorem evalReady_readyKept (ch : Chan) (s : State) : ReadyKept s (evalReady ch s) := evalReady_restores fun _ _ hc => hc

theorem dropFront_readyKept (ch : Chan) (len : Nat) (s : State) : ReadyKept s (dropFront ch len s) :=
  evalReady_modChan_readyKept ch _ s

/-! ## Waiting records and RESYNC -/

theorem abandonOpen_readyKept (ch : Chan) (tag : Nat) (after : Nat → Binding) (s : State) :
    ReadyKept s (abandonOpen ch tag after s) := by
  unfold abandonOpen
  split
  · exact (failPortrait_sameLink ..).ready.trans (setBinding_readyKept ..)
  · exact .rfl' s

theorem failOpen_readyKept (ch : Chan) (key tag found : Nat) (after : Binding) (s : State) :
    ReadyKept s (failOpen ch key tag found after s) :=
  (failPortrait_sameLink ..).ready.trans (setBinding_readyKept ..)

theorem dropWaiting_readyKept (e : WaitEntry) (b : List Byte) (cause : DropCause) (s : State) :
    ReadyKept s (dropWaiting e b cause s) := by
  have h := modChan_readyKept e.ch (fun c => { c with discarded := bump c.discarded }) (unwait e.ch s) fun _ h => h
  exact (h.trans (notify_sameLink ..).ready).of_chans rfl rfl

theorem discardWaiting_readyKept (cause : DropCause) (s : State) (e : WaitEntry) :
    ReadyKept s (discardWaiting cause s e) := by
  unfold discardWaiting
  dsimp only
  refine ReadyKept.trans ?_ (dropFront_readyKept ..)
  split
  · exact (dropWaiting_readyKept ..).trans (setBinding_readyKept ..)
  · exact dropWaiting_readyKept ..

theorem loseStream_readyKept (ch : Chan) (tag : Nat) (s : State) : ReadyKept s (loseStream ch tag s) := by
  unfold loseStream
  dsimp only
  have h := abandonOpen_readyKept ch tag (fun _ => .unbound) s
  generalize abandonOpen ch tag (fun _ => .unbound) s = u at h
  have emptied : ∀ c, c ≠ ch → s.chans[c].ReadyAt →
      (modChan ch (fun c => { c with buffer := [], mode := .resync, binding := .unbound, resetTag := tag }) u).chans[c].ReadyAt :=
    fun c hne hc => by rw [modChan_other _ _ hne]; exact h.at_level c hc
  refine evalReady_restores fun c hne hc => ?_
  split
  · exact (dropWaiting_readyKept ..).at_level c (emptied c hne hc)
  · exact emptied c hne hc

theorem enterResync_readyKept (ch : Chan) (tag : Nat) (s : State) : ReadyKept s (enterResync ch tag s) := by
  unfold enterResync
  split
  · exact modChan_readyKept ch _ s fun _ h => h
  · exact loseStream_readyKept ..

/-! ## The owners -/

/-- A record that is taken leaves every ready indication at its level. -/
structure Verdict.KeepsReady (v : Verdict) (s : State) : Prop where
  kept : ∀ t, v = .taken t → ReadyKept s t

theorem Verdict.keepsReady_taken {s t : State} (h : ReadyKept s t) : (Verdict.taken t).KeepsReady s := ⟨by rintro _ ⟨⟩; exact h⟩

theorem Verdict.keepsReady_refused (r : Reason) (x : List Item) (s : State) : (Verdict.refused r x).KeepsReady s :=
  ⟨by rintro _ ⟨⟩⟩

theorem Verdict.keepsReady_deferred (k : Resource) (s : State) : (Verdict.deferred k).KeepsReady s :=
  ⟨by rintro _ ⟨⟩⟩

theorem Verdict.KeepsReady.of_ite {v w : Verdict} {s : State} {p : Prop} [Decidable p] (hv : v.KeepsReady s)
    (hw : w.KeepsReady s) : Verdict.KeepsReady (if p then v else w) s := by
  split
  · exact hv
  · exact hw

open Verdict

theorem judgeJobOpen_keepsReady (ch : Chan) (b : List Byte) (s : State) : (judgeJobOpen ch b s).KeepsReady s :=
  .of_ite (keepsReady_refused ..) (.of_ite (keepsReady_refused ..) (.of_ite (keepsReady_refused ..)
    (.of_ite (keepsReady_deferred ..) (keepsReady_taken ⟨fun _ h => h⟩))))

theorem abandonForJob_readyKept (id tag : Nat) (s : State) (ch : Chan) : ReadyKept s (abandonForJob id tag s ch) := by
  unfold abandonForJob
  split
  · split
    · exact .of_ite (abandonOpen_readyKept ..) (.rfl' s)
    · exact .rfl' s
  · exact .rfl' s

theorem judgeJobClose_keepsReady (b : List Byte) (s : State) : (judgeJobClose b s).KeepsReady s := by
  unfold judgeJobClose
  dsimp only
  split
  · exact keepsReady_refused ..
  · refine .of_ite (keepsReady_taken ?_) (keepsReady_refused ..)
    exact ((foldl_readyKept (abandonForJob _ _) (abandonForJob_readyKept _ _) _ (setJob _ s)).trans
      (completeJob_sameLink _ _).ready).of_chans rfl rfl

theorem judgeRoster_keepsReady (ch : Chan) (b : List Byte) (s : State) : (judgeRoster ch b s).KeepsReady s := by
  refine .of_ite (keepsReady_refused ..) (.of_ite (keepsReady_refused ..) ?_)
  split
  · exact keepsReady_refused ..
  · exact .of_ite (keepsReady_deferred ..)
      (keepsReady_taken ((withEntry_sameLink ..).trans (takeRoster_sameLink ..)).ready)

theorem admitHead_readyKept (ch : Chan) (b : List Byte) (j : Job) (s : State) : ReadyKept s (admitHead ch b j s) := by
  unfold admitHead
  dsimp only
  have h := (withEntry_sameLink (field b 8 4) j.id s).ready
  split
  · exact h
  · exact h.trans ((setBinding_readyKept ch (.opened (field b 8 4) 0) (withEntry (field b 8 4) j.id s)).of_chans rfl rfl)

theorem blocksStep_keepsReady (ch : Chan) (b : List Byte) (j : Job) (s : State) : (blocksStep ch b j s).KeepsReady s :=
  .of_ite (keepsReady_deferred ..) (keepsReady_taken (admitHead_readyKept ..))

/-- The role step never takes a head by itself. -/
theorem roleStep_not_taken (ch : Chan) (key version : Nat) (e : Entry) (s t : State) :
    ¬roleStep ch key version e s = some (.taken t) := by
  unfold roleStep
  split
  · simp
  · split
    · simp
    · split
      · simp
      · split <;> simp

theorem judgeHead_keepsReady (ch : Chan) (b : List Byte) (s : State) : (judgeHead ch b s).KeepsReady s := by
  unfold judgeHead
  dsimp only
  split
  · exact keepsReady_refused ..
  · refine .of_ite (keepsReady_refused ..) ?_
    split
    · exact .of_ite (keepsReady_deferred ..) (blocksStep_keepsReady ..)
    · split
      · rename_i v hv
        exact ⟨fun t ht => absurd (hv.trans (congrArg some ht)) (roleStep_not_taken _ _ _ _ _ _)⟩
      · exact blocksStep_keepsReady ..

theorem acceptStrip_readyKept (ch : Chan) (b : List Byte) (key expected : Nat) (e : Entry) (v : Version) (win : Rect)
    (s : State) : ReadyKept s (acceptStrip ch b key expected e v win s) :=
  (setBinding_readyKept ch (.opened key (expected + 1)) s).of_chans rfl rfl

theorem judgeStrip_keepsReady (ch : Chan) (b : List Byte) (s : State) : (judgeStrip ch b s).KeepsReady s := by
  unfold judgeStrip
  split
  · split
    · exact keepsReady_refused ..
    · split
      · exact keepsReady_refused ..
      · split
        · exact keepsReady_refused ..
        · exact .of_ite (keepsReady_taken (acceptStrip_readyKept ..)) (keepsReady_taken (failOpen_readyKept ..))
  · exact keepsReady_refused ..

theorem judgeEnd_keepsReady (ch : Chan) (b : List Byte) (s : State) : (judgeEnd ch b s).KeepsReady s := by
  unfold judgeEnd
  split
  · split
    · exact keepsReady_refused ..
    · split
      · exact keepsReady_refused ..
      · have h := setBinding_readyKept ch .unbound s
        exact .of_ite (keepsReady_taken (h.trans (takeRole_sameLink ..).ready))
          (keepsReady_taken (h.trans (failPortrait_sameLink ..).ready))
  · exact keepsReady_refused ..

theorem judgeTemplate_keepsReady (ch : Chan) (b : List Byte) (s : State) : (judgeTemplate ch b s).KeepsReady s := by
  refine .of_ite (keepsReady_refused ..) (.of_ite (keepsReady_refused ..) (.of_ite (keepsReady_refused ..) ?_))
  split
  · exact keepsReady_refused ..
  · split
    · exact keepsReady_deferred ..
    · exact .of_ite (keepsReady_deferred ..) (keepsReady_taken (loadTemplate_sameLink ..).ready)

theorem judgeFont_keepsReady (ch : Chan) (b : List Byte) (s : State) : (judgeFont ch b s).KeepsReady s :=
  .of_ite (keepsReady_refused ..) (.of_ite (keepsReady_deferred ..)
    (keepsReady_taken (.same (notify_chans ..))))

theorem judgeGlyph_keepsReady (ch : Chan) (b : List Byte) (s : State) : (judgeGlyph ch b s).KeepsReady s := by
  refine .of_ite (keepsReady_refused ..) (.of_ite (keepsReady_refused ..) (.of_ite (keepsReady_refused ..)
    (.of_ite (keepsReady_deferred ..) ?_)))
  dsimp only
  split
  · exact keepsReady_refused ..
  · exact .of_ite (keepsReady_refused ..) (keepsReady_taken ⟨fun _ h => h⟩)

theorem judgePage_keepsReady (ch : Chan) (b : List Byte) (s : State) : (judgePage ch b s).KeepsReady s := by
  refine .of_ite (keepsReady_refused ..) (.of_ite (keepsReady_refused ..) ?_)
  split
  · exact keepsReady_refused ..
  · refine .of_ite (keepsReady_refused ..) ?_
    split
    · exact keepsReady_refused ..
    · split
      · exact keepsReady_refused ..
      · exact keepsReady_refused ..
      · exact keepsReady_refused ..
      · exact .of_ite (keepsReady_deferred ..) (keepsReady_taken (takePage_sameLink ..).ready)

theorem judgePageCancel_keepsReady (b : List Byte) (s : State) : (judgePageCancel b s).KeepsReady s := by
  unfold judgePageCancel
  dsimp only
  split
  · exact keepsReady_refused ..
  · exact .of_ite (keepsReady_refused ..)
      (keepsReady_taken (releasePage_sameLink _ _ _ s fun _ _ => notify_sameLink ..).ready)

theorem judgeQuery_keepsReady (ch : Chan) (b : List Byte) (s : State) : (judgeQuery ch b s).KeepsReady s := by
  unfold judgeQuery
  dsimp only
  split
  · exact keepsReady_refused ..
  · exact .of_ite (keepsReady_refused ..) (.of_ite (keepsReady_deferred ..) (keepsReady_taken (storeReply_sameLink ..).ready))

theorem judgeFlagsClear_keepsReady (b : List Byte) (s : State) : (judgeFlagsClear b s).KeepsReady s := by
  refine .of_ite (keepsReady_refused ..) (keepsReady_taken ?_)
  have h := foldl_readyKept (clearChannelFlags (field b 8 2)) (fun s ch => modChan_readyKept ch _ s fun _ h => h)
    (List.finRange 4) s
  exact h.of_chans rfl rfl

theorem judgeFlush_keepsReady (s : State) : (judgeFlush s).KeepsReady s :=
  keepsReady_taken (.same (releaseRule_chans _))

theorem judgeChannelReset_keepsReady (b : List Byte) (s : State) : (judgeChannelReset b s).KeepsReady s := by
  unfold judgeChannelReset
  dsimp only
  split
  · exact keepsReady_taken (enterResync_readyKept ..)
  · exact keepsReady_refused ..

theorem judgeClear_keepsReady (b : List Byte) (s : State) : (judgeClear b s).KeepsReady s := by
  have h1 := (purgePress_sameLink s).ready.trans (foldl_readyKept (fun s ch => abandonOpen ch (recTag b) .skipping s)
    (fun s ch => abandonOpen_readyKept ch _ _ s) (List.finRange 4) (purgePress s))
  have h2 : ∀ u, ReadyKept u (dropAllWaiting u) := fun u =>
    foldl_readyKept (discardWaiting .clear) (discardWaiting_readyKept .clear) u.waiting u
  exact keepsReady_taken ((h1.trans (h2 _)).of_chans rfl rfl)

/-! ## SET: the watermarks change first, and every indication is then evaluated (R2, R175) -/

theorem foldl_evalReady_readyAt (l : List Chan) (s : State) :
    ∀ ch ∈ l, (l.foldl (fun s ch => evalReady ch s) s).chans[ch].ReadyAt := by
  induction l generalizing s with
  | nil => exact nofun
  | cons a rest ih =>
    intro ch hm
    obtain rfl | hm := List.mem_cons.1 hm
    · exact (foldl_readyKept _ (fun s ch => evalReady_readyKept ch s) rest (evalReady ch s)).at_level ch
        (evalReady_readyAt ch s)
    · exact ih _ ch hm

theorem evalAll_readyJudged (s : State) : ReadyJudged ((List.finRange 4).foldl (fun s ch => evalReady ch s) s) :=
  fun ch => foldl_evalReady_readyAt _ s ch (List.mem_finRange ch)

theorem settingEffects_readyJudged (old : State) (pairs : List (Nat × Nat)) (tag : Nat) (s : State) :
    ReadyJudged (settingEffects old pairs tag s) := by
  unfold settingEffects
  dsimp only
  have m1 := evalAll_readyJudged s
  generalize (List.finRange 4).foldl (fun s ch => evalReady ch s) s = s1 at m1
  have m2 : ReadyKept s1 (if s1.stallLimit = old.stallLimit then s1 else discardDue s1) :=
    .of_ite (.rfl' s1) (foldl_readyKept (discardWaiting .limit) (discardWaiting_readyKept .limit) _ s1)
  generalize (if s1.stallLimit = old.stallLimit then s1 else discardDue s1) = s2 at m2
  have m3 : ReadyKept s2 (if s2.lead = old.lead then s2 else pump s2) := .of_ite (.rfl' s2) (pump_sameLink s2).ready
  generalize (if s2.lead = old.lead then s2 else pump s2) = s3 at m3
  have m4 : ReadyKept s3 (if pairs.any (fun p => 8 ≤ p.1 && p.1 ≤ 14) = true then releaseRule s3 else s3) :=
    .of_ite (releaseRule_sameLink s3).ready (.rfl' s3)
  generalize (if pairs.any (fun p => 8 ≤ p.1 && p.1 ≤ 14) = true then releaseRule s3 else s3) = s4 at m4
  have m5 : ReadyKept s4 (if s4.lowMark = old.lowMark then s4 else judgeStore tag s4) :=
    .of_ite (.rfl' s4) (judgeStore_sameLink tag s4).ready
  exact fun ch => (((m2.trans m3).trans m4).trans m5).at_level ch (m1 ch)

theorem judgeSet_keepsReady (b : List Byte) (s : State) : (judgeSet b s).KeepsReady s :=
  .of_ite (keepsReady_refused ..) (keepsReady_taken ⟨fun ch _ =>
    (storeReply_sameLink ..).ready.at_level ch (settingEffects_readyJudged s _ _ _ ch)⟩)

/-! ## The decoder and a whole step -/

theorem judgeOwner_keepsReady (ch : Chan) (kind : RecordKind) (b : List Byte) (s : State) :
    (judgeOwner ch kind b s).KeepsReady s := by
  cases kind
  · exact judgeJobOpen_keepsReady ..
  · exact judgeJobClose_keepsReady ..
  · exact judgeRoster_keepsReady ..
  · exact judgeHead_keepsReady ..
  · exact judgeStrip_keepsReady ..
  · exact judgeEnd_keepsReady ..
  · exact judgeTemplate_keepsReady ..
  · exact judgeFont_keepsReady ..
  · exact judgeGlyph_keepsReady ..
  · exact judgePage_keepsReady ..
  · exact judgePageCancel_keepsReady ..
  · exact judgeSet_keepsReady ..
  · exact judgeQuery_keepsReady ..
  · exact judgeFlagsClear_keepsReady ..
  · exact judgeFlush_keepsReady ..
  · exact judgeChannelReset_keepsReady ..
  · exact judgeClear_keepsReady ..

theorem judgeRecord_keepsReady (ch : Chan) (b : List Byte) (s : State) : (judgeRecord ch b s).KeepsReady s := by
  unfold judgeRecord
  split
  · exact keepsReady_refused ..
  · exact judgeOwner_keepsReady ..

theorem skipRefusedHead_readyKept (ch : Chan) (b : List Byte) (s : State) : ReadyKept s (skipRefusedHead ch b s) := by
  unfold skipRefusedHead
  split
  · exact setBinding_readyKept ..
  · exact .rfl' s

theorem deferRecord_readyKept (ch : Chan) (kind : Resource) (s : State) : ReadyKept s (deferRecord ch kind s) := by
  obtain ⟨-, e⟩ | ⟨-, e⟩ := deferRecord_cases ch kind s
  · rw [e]; exact ⟨fun _ h => h⟩
  · rw [e]
    have h := modChan_readyKept ch (fun c => { c with stalls := bump c.stalls }) s fun _ h => h
    exact h.of_chans rfl rfl

theorem conclude_readyKept (ch : Chan) (b : List Byte) (v : Verdict) (s : State) (hv : v.KeepsReady s) :
    ReadyKept s (conclude ch b v s) := by
  unfold conclude
  refine ReadyKept.trans ?_ (judgeStore_sameLink ..).ready
  cases v with
  | taken t =>
    have h := modChan_readyKept ch (fun c => { c with taken := bump c.taken }) (unwait ch t) fun _ h => h
    exact ((hv.kept t rfl).trans (h.of_chans rfl rfl)).trans (dropFront_readyKept ..)
  | refused reason extra =>
    have h := modChan_readyKept ch (fun c => { c with refused := bump c.refused }) (unwait ch s) fun _ h => h
    exact (((h.of_chans (s' := s) rfl rfl).trans (notify_sameLink ..).ready).trans (skipRefusedHead_readyKept ..)).trans (dropFront_readyKept ..)
  | deferred kind => exact deferRecord_readyKept ..

theorem endOpenPortrait_readyKept (ch : Chan) (b : List Byte) (s : State) : ReadyKept s (endOpenPortrait ch b s) := by
  unfold endOpenPortrait
  split
  · exact ((failOpen_readyKept ..).trans (judgeStore_sameLink ..).ready).trans (pump_sameLink _).ready
  · exact .rfl' s

theorem breakByKey_readyKept (ch : Chan) (found : Nat) (b : List Byte) (s : State) : ReadyKept s (breakByKey ch found b s) := by
  unfold breakByKey
  split
  · exact .of_ite (.rfl' s) (failOpen_readyKept ..)
  · exact .rfl' s

theorem breakOpen_readyKept (ch : Chan) (kind : RecordKind) (b : List Byte) (s : State) :
    ReadyKept s (breakOpen ch kind b s) := by
  unfold breakOpen
  split
  · exact endOpenPortrait_readyKept ..
  · exact breakByKey_readyKept ..
  · exact breakByKey_readyKept ..
  · exact .rfl' s

theorem breakByRefused_readyKept (ch : Chan) (b : List Byte) (s : State) : ReadyKept s (breakByRefused ch b s) := by
  unfold breakByRefused
  split
  · exact endOpenPortrait_readyKept ..
  · exact .rfl' s

theorem discardSkipped_readyKept (ch : Chan) (b : List Byte) (s : State) : ReadyKept s (discardSkipped ch b s) := by
  have h := (modChan_readyKept ch (fun c => { c with discarded := bump c.discarded }) s fun _ h => h).trans
    (dropFront_readyKept ch b.length _)
  exact .of_ite (h.trans (setBinding_readyKept ..)) h

theorem endSkip_readyKept (ch : Chan) (b : List Byte) (s : State) : ReadyKept s (endSkip ch b s) := by
  unfold endSkip
  split
  · exact .of_ite (.rfl' s) (setBinding_readyKept ..)
  · exact .rfl' s

theorem presentRecord_readyKept (ch : Chan) (b : List Byte) (s : State) : ReadyKept s (presentRecord ch b s) := by
  unfold presentRecord
  split
  · exact ((endSkip_readyKept ..).trans (breakByRefused_readyKept ..)).trans
      (conclude_readyKept _ _ _ _ (keepsReady_refused ..))
  · exact .of_ite (discardSkipped_readyKept ..) (((endSkip_readyKept ..).trans (breakOpen_readyKept ..)).trans
      (conclude_readyKept _ _ _ _ (judgeOwner_keepsReady ..)))

theorem framingError_readyKept (ch : Chan) (len : Nat) (s : State) : ReadyKept s (framingError ch len s) := by
  have h : ReadyKept s (modChan ch (fun c => { c with framing := true }) s) := modChan_readyKept ch _ s fun _ h => h
  exact ((h.trans (notify_sameLink ..).ready).trans (enterResync_readyKept ..)).trans (judgeStore_sameLink ..).ready

theorem dispatchFront_readyKept (ch : Chan) (s : State) : ReadyKept s (dispatchFront ch s) := by
  unfold dispatchFront
  split
  · exact .rfl' s
  · exact .of_ite (framingError_readyKept ..) (presentRecord_readyKept ..)

theorem frameArrives_readyKept (ch : Chan) (sync : Bool) (payload : List Byte) (s : State) :
    ReadyKept s (frameArrives ch sync payload s) := by
  unfold frameArrives
  split
  · refine .of_ite (evalReady_modChan_readyKept ..) ?_
    have h : ReadyKept s (modChan ch (fun c => { c with dropped := bump c.dropped, overflow := true }) s) :=
      modChan_readyKept ch _ s fun _ h => h
    exact (h.trans (notify_sameLink ..).ready).trans (enterResync_readyKept ..)
  · refine .of_ite (evalReady_restores fun c hne hc => ?_) (modChan_readyKept ch _ s fun _ h => h)
    rw [notify_chans, modChan_other _ _ hne]
    exact hc

theorem examineEntry_readyKept (acc : List Resource × State) (ch : Chan) : ReadyKept acc.2 (examineEntry acc ch).2 := by
  obtain ⟨noted, s⟩ := acc
  unfold examineEntry
  dsimp only
  have h := (conclude_readyKept ch s.chans[ch].front _ s (judgeRecord_keepsReady ch s.chans[ch].front s)).trans
    (pump_sameLink _).ready
  split
  · exact .rfl' s
  · split
    · exact .rfl' s
    · split <;> exact h

theorem examine_readyKept (s : State) : ReadyKept s (examine s) := by
  have run : ∀ (l : List Chan) (acc : List Resource × State), ReadyKept acc.2 (l.foldl examineEntry acc).2 := by
    intro l
    induction l with
    | nil => exact fun acc => .rfl' _
    | cons ch rest ih => exact fun acc => (examineEntry_readyKept acc ch).trans (ih _)
  exact (run (s.waiting.map (·.ch)) ([], { s with wake := false })).of_chans rfl rfl

theorem choose_chans {α : Type} {l : List α} {s t : State} {a : α} (h : choose l s = some (a, t)) : t.chans = s.chans := by
  unfold choose at h
  split at h
  · cases h
  · cases h; rfl
  · cases h; rfl

theorem settleFor_readyKept (n : Nat) (s : State) : ReadyKept s (settleFor n s) := by
  induction n generalizing s with
  | zero => exact ⟨fun _ h => h⟩
  | succ n ih =>
    unfold settleFor
    split
    · exact ⟨fun _ h => h⟩
    · rename_i t u h
      have run : ReadyKept u (runTask t u) := by
        cases t with
        | examination => exact examine_readyKept u
        | dispatch ch => exact (dispatchFront_readyKept ch u).trans (pump_sameLink _).ready
      have same : ReadyKept s u := .same (choose_chans h)
      exact (same.trans run).trans (ih _)

theorem event_readyKept (f : State → State) (s : State) (h : ReadyKept s (f s)) : ReadyKept s (event f s) :=
  ((h.trans (judgeStore_sameLink ..).ready).trans (pump_sameLink _).ready).trans (settleFor_readyKept _ _)

theorem whenUp_readyKept (f : State → State) (s : State) (h : ∀ s, ReadyKept s (f s)) : ReadyKept s (whenUp f s) := by
  unfold whenUp
  split
  · exact ⟨fun _ h => h⟩
  · exact (h { s with out := [] }).of_chans rfl rfl

theorem deliver_readyKept (ch : Chan) (bytes : List Byte) (s : State) : ReadyKept s (deliver ch bytes s) :=
  foldl_readyKept _ (fun s p => event_readyKept _ s (frameArrives_readyKept ch false p s)) _ s

theorem stallExpiry_readyKept (ch : Chan) (s : State) : ReadyKept s (stallExpiry ch s) := by
  unfold stallExpiry
  split
  · exact (discardWaiting_readyKept .limit (advanceTo _ s) _).of_chans rfl rfl
  · exact .rfl' s

theorem holdEnds_readyKept (s : State) : ReadyKept s (holdEnds s) := by
  unfold holdEnds
  split
  · exact .rfl' s
  · split <;> exact ⟨fun _ h => h⟩

theorem gateExpires_readyKept (cls : NoticeClass) (s : State) : ReadyKept s (gateExpires cls s) := by
  unfold gateExpires
  split
  · exact (releaseRule_sameLink (advanceTo _ s)).ready.of_chans rfl rfl
  · exact .rfl' s

theorem transferEnd_readyKept (s : State) : ReadyKept s (transferEnd s) := by
  unfold transferEnd
  split
  · exact (releaseRule_sameLink (emit .returnEnd { s with returnChannel := none })).ready.of_chans rfl rfl
  · exact .rfl' s

theorem sendingEnd_readyKept (s : State) : ReadyKept s (sendingEnd s) := by
  unfold sendingEnd
  split
  · exact (endSending_sameLink ..).ready
  · exact .rfl' s

theorem compositionComplete_readyKept (s : State) : ReadyKept s (compositionComplete s) := by
  unfold compositionComplete
  split
  · exact (completeBand_sameLink ..).ready
  · exact .rfl' s

theorem tick_readyKept (s : State) : ReadyKept s (tick s) := by
  unfold tick
  dsimp only
  split
  · exact ⟨fun _ h => h⟩
  · split
    · rename_i d u h
      refine ((ReadyKept.same (choose_chans h)).of_chans (s' := s) rfl rfl).trans ?_
      cases d with
      | stall ch => exact event_readyKept _ u (stallExpiry_readyKept ch u)
      | hold => exact event_readyKept _ u (holdEnds_readyKept u)
      | release => exact event_readyKept _ u (releaseRule_sameLink u).ready
    · exact ⟨fun _ h => h⟩

theorem reset_readyJudged : ReadyJudged State.reset := by
  intro ch
  simp [State.reset, Channel.reset, Channel.readyLevel, Channel.space, Config.watermarkDefault, Config.bufferSize]

theorem exec_readyJudged (c : Instr) (s t : State) (hs : ReadyJudged s) (h : exec c s = .next t) : ReadyJudged t := by
  have up : ∀ {f : State → State} {t : State}, (.next (whenUp f s) : Host.Outcome State Fault Refusal) = .next t →
      (∀ s, ReadyKept s (f s)) → ReadyJudged t := by
    rintro f t ⟨⟩ hf ch
    exact (whenUp_readyKept f s hf).at_level ch (hs ch)
  cases c with
  | linkFrame ch sync payload => exact up h fun s => event_readyKept _ s (frameArrives_readyKept ch sync payload s)
  | masterReset => cases h; exact reset_readyJudged
  | resetInputHigh =>
    cases h
    unfold leaveReset
    split
    · exact hs
    · exact hs
  | start id => exact up h fun s => event_readyKept _ s (pressStart_sameLink id s).ready
  | demand => exact up h fun s => event_readyKept _ s (pressDemand_sameLink s).ready
  | done id => exact up h fun s => event_readyKept _ s (pressDone_sameLink id s).ready
  | fault id => exact up h fun s => event_readyKept _ s (pressFault_sameLink id s).ready
  | restart => exact up h fun s => event_readyKept _ s (pressRestart_sameLink s).ready
  | badMessage type id => exact up h fun s => event_readyKept _ s (headProtocol_sameLink type id _ s).ready
  | bandCompositionComplete => exact up h fun s => event_readyKept _ s (compositionComplete_readyKept s)
  | bandSendingEnd => exact up h fun s => event_readyKept _ s (sendingEnd_readyKept s)
  | returnTransferEnd => exact up h fun s => event_readyKept _ s (transferEnd_readyKept s)
  | stallLimitExpiry ch => exact up h fun s => event_readyKept _ s (stallExpiry_readyKept ch s)
  | holdExpiry => exact up h fun s => event_readyKept _ s (holdEnds_readyKept s)
  | gateExpiry cls => exact up h fun s => event_readyKept _ s (gateExpires_readyKept cls s)
  | _ => exact up h fun s => deliver_readyKept _ _ s

/-- Settles O53: every step carries each ready indication that stands at its level to one that does (`ReadyKept`), and a master
reset asserts them all. -/
theorem stepKeepsReady : Obligations.StepKeepsReady := by
  intro s t hs h
  unfold step at h
  split at h
  · cases h
    exact fun ch => (tick_readyKept s).at_level ch (hs ch)
  · rename_i c rest _
    exact exec_readyJudged c { s with pending := rest } t hs h

end Sys2Proof.Machine
end

section
/-! PROOF. Every channel stays legal, and the return queue and the waiting list stay within bounds: each move keeps them. -/

namespace Sys2Proof.Machine

/-! ## Channels (1.1, R1, R2, R4, R5, R18) -/

theorem bump_le {n : Nat} (h : n ≤ Config.counterMax) : bump n ≤ Config.counterMax := by
  unfold bump
  split <;> omega

theorem reset_channelsLegal : ChannelsLegal State.reset := by
  intro ch
  have e : State.reset.chans[ch] = Channel.reset := by simp [State.reset]
  rw [e]
  exact ⟨by decide, by decide, nofun, fun _ => rfl, by decide⟩

/-- Every change of a channel keeps it legal, where the frame that ends a RESYNC fits the buffer. -/
theorem ChanMove.keeps_legal {lim : Nat} (hl : lim ≤ Config.bufferSize) {c d : Channel} (m : ChanMove lim c d)
    (h : ChannelLegal c) : ChannelLegal d := by
  obtain ⟨fits, mark, resync, active, taken, refused, discarded, dropped, stalls⟩ := h
  have counters := And.intro taken (And.intro refused (And.intro discarded (And.intro dropped stalls)))
  cases m with
  | append p ha hp =>
    refine ⟨?_, mark, fun hr => absurd (ha.symm.trans hr) nofun, active, counters⟩
    rw [List.length_append]
    unfold Channel.space at hp
    omega
  | drop n =>
    refine ⟨?_, mark, fun hr => ⟨?_, (resync hr).2⟩, active, counters⟩
    · rw [List.length_drop]; omega
    · show c.buffer.drop n = []
      rw [(resync hr).1, List.drop_nil]
  | ready r => exact ⟨fits, mark, resync, active, counters⟩
  | lose tag => exact ⟨Nat.zero_le _, mark, fun _ => ⟨rfl, rfl⟩, nofun, counters⟩
  | retag tag hr => exact ⟨fits, mark, resync, fun ha => absurd (hr.symm.trans ha) nofun, counters⟩
  | rejoin p hp => exact ⟨Nat.le_trans hp hl, mark, nofun, fun _ => rfl, counters⟩
  | unbind => exact ⟨fits, mark, fun hr => ⟨(resync hr).1, rfl⟩, active, counters⟩
  | bind b hb => exact ⟨fits, mark, fun hr => absurd (resync hr) fun ⟨h1, h2⟩ => hb.elim (· h2) (· h1), active, counters⟩
  | taken => exact ⟨fits, mark, resync, active, bump_le taken, refused, discarded, dropped, stalls⟩
  | refused => exact ⟨fits, mark, resync, active, taken, bump_le refused, discarded, dropped, stalls⟩
  | discarded => exact ⟨fits, mark, resync, active, taken, refused, bump_le discarded, dropped, stalls⟩
  | dropped => exact ⟨fits, mark, resync, active, taken, refused, discarded, bump_le dropped, stalls⟩
  | stalls => exact ⟨fits, mark, resync, active, taken, refused, discarded, dropped, bump_le stalls⟩
  | flags o f => exact ⟨fits, mark, resync, active, counters⟩
  | watermark v hv => exact ⟨fits, hv, resync, active, counters⟩

theorem ChanMoves.keeps_legal {lim : Nat} (hl : lim ≤ Config.bufferSize) {c d : Channel} (m : ChanMoves lim c d)
    (h : ChannelLegal c) : ChannelLegal d := by
  induction m with
  | refl => exact h
  | tail _ m ih => exact m.keeps_legal hl ih

theorem Move.keeps_channels {lim : Nat} (hl : lim ≤ Config.bufferSize) {s t : State} (m : Move lim s t)
    (h : ChannelsLegal s) : ChannelsLegal t := by
  cases m
  case chan ch c hc =>
    intro k
    by_cases e : k = ch
    · subst e
      have new : (modChan k (fun _ => c) s).chans[k] = c := modChan_self ..
      exact Eq.mpr (congrArg ChannelLegal new) (hc.keeps_legal hl (h k))
    · have same : (modChan ch (fun _ => c) s).chans[k] = s.chans[k] := modChan_other _ s e
      exact Eq.mpr (congrArg ChannelLegal same) (h k)
  case masterReset => exact reset_channelsLegal
  all_goals exact h

/-- Settles O52: the moves of a step keep the channels legal, a well-formed frame's payload being within the buffer's size. -/
theorem stepKeepsChannels : Obligations.StepKeepsChannels := by
  intro s t hp hs h
  have m := step_moves (lim := Config.maxPayload) s t (fun c hc => frameWithin_wf (hp c hc)) h
  exact m.keeps (fun _ _ m => m.keeps_channels (by decide)) hs

/-! ## The return queue (R164) -/

/-- What a release leaves in the queue is what stood there less the released entry. -/
theorem pickReleasable_sublist {s : State} (q : List Held) :
    ∀ {seen : List NoticeClass} {h : Held} {rest : List Held}, s.pickReleasable seen q = some (h, rest) → rest.Sublist q := by
  induction q with
  | nil => exact nofun
  | cons a q ih =>
    intro seen h rest hp
    unfold State.pickReleasable at hp
    split at hp
    · cases hp; exact List.sublist_cons_self _ _
    · split at hp
      · rename_i x left hx
        cases hp
        exact (ih hx).cons_cons a
      · cases hp

theorem QueueBounded.of_sublist {s t : State} (h : QueueBounded s) (hq : t.returnQueue.Sublist s.returnQueue) :
    QueueBounded t :=
  ⟨Nat.le_trans hq.length_le h.1, Nat.le_trans (hq.countP_le) h.2⟩

theorem Move.keeps_queue {lim : Nat} {s t : State} (m : Move lim s t) (h : QueueBounded s) : QueueBounded t := by
  have reset : QueueBounded (Machine.masterReset s) := ⟨Nat.zero_le _, Nat.zero_le _⟩
  have stored : ∀ r : Held, s.returnQueue.length < Config.returnEntries →
      (r.isNotice = true → s.noticesHeld < Config.noticeEntries) →
      QueueBounded { s with returnQueue := s.returnQueue ++ [r] } := by
    intro r hl hn
    constructor
    · simpa using hl
    · have hh := h.2
      unfold State.noticesHeld at hh hn ⊢
      simp only [List.countP_append, List.countP_singleton]
      split
      · rename_i hr; exact hn hr
      · exact hh
  cases m
  case postNotice n hn hl => exact stored _ hl fun _ => hn
  case postReply r hl => exact stored _ hl nofun
  case flush =>
    refine ⟨?_, ?_⟩
    · show (s.returnQueue.map _).length ≤ _
      rw [List.length_map]; exact h.1
    · show (s.returnQueue.map _).countP Held.isNotice ≤ _
      rw [List.countP_map]; exact h.2
  case release x rest hp => exact h.of_sublist (pickReleasable_sublist _ hp)
  case masterReset => exact reset
  all_goals exact h

/-! ## The waiting list (1.7) -/

theorem stalled_eq_false_iff {s : State} {ch : Chan} : s.stalled ch = false ↔ ∀ e ∈ s.waiting, e.ch ≠ ch := by
  simp [State.stalled, State.waitOf]

theorem Move.keeps_waiting {lim : Nat} {s t : State} (m : Move lim s t) (h : WaitingDistinct s) : WaitingDistinct t := by
  have reset : WaitingDistinct (Machine.masterReset s) := List.nodup_nil
  unfold WaitingDistinct at h
  cases m
  case stall ch kind hs =>
    show ((s.waiting ++ [({ ch := ch, kind := kind, start := s.now } : WaitEntry)]).map (·.ch)).Nodup
    rw [List.map_append, List.nodup_append]
    refine ⟨h, List.nodup_singleton _, ?_⟩
    intro a ha b hb
    obtain ⟨e, he, rfl⟩ := List.mem_map.1 ha
    obtain rfl := List.mem_singleton.1 hb
    exact stalled_eq_false_iff.1 hs e he
  case rekind w hw =>
    show (w.map (·.ch)).Nodup
    rw [hw]; exact h
  case unwait ch => exact h.sublist (List.filter_sublist.map _)
  case noWaiters => exact List.nodup_nil
  case masterReset => exact reset
  all_goals exact h

theorem step_keeps_queue_waiting (s t : State) (hq : QueueBounded s) (hw : WaitingDistinct s) (h : step s = .next t) :
    QueueBounded t ∧ WaitingDistinct t := by
  obtain ⟨lim, hl⟩ := exists_frameWithin s.pending
  have m := step_moves s t hl h
  exact ⟨m.keeps (fun _ _ m => m.keeps_queue) hq, m.keeps (fun _ _ m => m.keeps_waiting) hw⟩

/-! ## No record passes an older waiter (R13) -/

/-- An entry of another channel stands before the channel's own entry, or anywhere where it has none, and waits for the kind. -/
theorem olderWaiter_iff (ch : Chan) (kind : Resource) (s : State) : s.olderWaiter ch kind = true ↔
    ∃ before e after, s.waiting = before ++ e :: after ∧ e.kind = kind ∧ e.ch ≠ ch ∧ ∀ x ∈ before, x.ch ≠ ch := by
  unfold State.olderWaiter
  generalize s.waiting = l
  induction l with
  | nil => simp
  | cons a rest ih =>
    by_cases ha : a.ch = ch
    · have stop : (a :: rest).takeWhile (fun x => decide (x.ch ≠ ch)) = [] := by simp [ha]
      rw [stop]
      refine ⟨nofun, ?_⟩
      rintro ⟨before, e, after, hl, -, he, hb⟩
      cases before with
      | nil => cases hl; exact absurd ha he
      | cons x before => cases hl; exact absurd ha (hb _ List.mem_cons_self)
    · have go : (a :: rest).takeWhile (fun x => decide (x.ch ≠ ch)) = a :: rest.takeWhile (fun x => decide (x.ch ≠ ch)) := by
        simp [ha]
      rw [go, List.any_cons, Bool.or_eq_true, decide_eq_true_eq, ih]
      constructor
      · rintro (hk | ⟨before, e, after, hl, hk, he, hb⟩)
        · exact ⟨[], a, rest, rfl, hk, ha, nofun⟩
        · refine ⟨a :: before, e, after, by rw [hl]; rfl, hk, he, fun x hx => ?_⟩
          obtain rfl | hx := List.mem_cons.1 hx
          · exact ha
          · exact hb x hx
      · rintro ⟨before, e, after, hl, hk, he, hb⟩
        cases before with
        | nil => cases hl; exact .inl hk
        | cons x before => cases hl; exact .inr ⟨before, e, after, rfl, hk, he, fun x hx => hb x (List.mem_cons_of_mem _ hx)⟩

/-- A record that is taken has passed the condition for a refusal. -/
theorem Verdict.passes_refusal {p : Prop} [Decidable p] {r : Reason} {x : List Item} {v : Verdict} {t : State}
    (h : (if p then .refused r x else v) = .taken t) : ¬p ∧ v = .taken t := by
  split at h
  · cases h
  · rename_i hp; exact ⟨hp, h⟩

/-- A record that is taken has passed the condition for a deferral. -/
theorem Verdict.passes_deferral {p : Prop} [Decidable p] {k : Resource} {v : Verdict} {t : State}
    (h : (if p then .deferred k else v) = .taken t) : ¬p ∧ v = .taken t := by
  split at h
  · cases h
  · rename_i hp; exact ⟨hp, h⟩

open Verdict

theorem not_or_right {p q : Bool} (h : ¬(p || q) = true) : q = false := by
  simp only [Bool.or_eq_true, not_or, Bool.not_eq_true] at h
  exact h.2

theorem judgeJobOpen_taken_first {ch : Chan} {b : List Byte} {s t : State} (h : judgeJobOpen ch b s = .taken t) :
    s.olderWaiter ch .jobSlot = false := by
  obtain ⟨-, h⟩ := passes_refusal h
  obtain ⟨-, h⟩ := passes_refusal h
  obtain ⟨-, h⟩ := passes_refusal h
  exact not_or_right (passes_deferral h).1

theorem judgeRoster_taken_first {ch : Chan} {b : List Byte} {s t : State} (h : judgeRoster ch b s = .taken t)
    (hn : s.entry? (field b 8 4) = none) : s.olderWaiter ch .entry = false := by
  obtain ⟨-, h⟩ := passes_refusal h
  obtain ⟨-, h⟩ := passes_refusal h
  split at h
  · cases h
  · have hw := (passes_deferral h).1
    rw [hn] at hw
    exact not_or_right hw

theorem blocksStep_taken_first {ch : Chan} {b : List Byte} {j : Job} {s t : State} (h : blocksStep ch b j s = .taken t) :
    s.olderWaiter ch .blocks = false := not_or_right (passes_deferral h).1

theorem roleStep_passed_first {ch : Chan} {key version : Nat} {e : Entry} {s : State}
    (h : roleStep ch key version e s = none) : s.olderWaiter ch (.incomingRole key) = false ∧
      (e.current.isSome → s.olderWaiter ch (.retiringRole key) = false) := by
  unfold roleStep at h
  split at h
  · cases h
  · rename_i hi
    refine ⟨not_or_right hi, ?_⟩
    split at h
    · rename_i hc; rw [hc]; exact nofun
    · split at h
      · cases h
      · split at h
        · cases h
        · rename_i hr; exact fun _ => not_or_right hr

theorem judgeHead_taken_first {ch : Chan} {b : List Byte} {s t : State} (h : judgeHead ch b s = .taken t) :
    s.olderWaiter ch .blocks = false ∧ (s.entry? (field b 8 4) = none → s.olderWaiter ch .entry = false) ∧
      ∀ e, s.entry? (field b 8 4) = some e → s.olderWaiter ch (.incomingRole (field b 8 4)) = false ∧
        (e.current.isSome → s.olderWaiter ch (.retiringRole (field b 8 4)) = false) := by
  unfold judgeHead at h
  dsimp only at h
  split at h
  · cases h
  · obtain ⟨-, h⟩ := passes_refusal h
    split at h
    · rename_i hn
      obtain ⟨hw, h⟩ := passes_deferral h
      exact ⟨blocksStep_taken_first h, fun _ => not_or_right hw, fun e he => absurd (hn.symm.trans he) nofun⟩
    · rename_i e he
      split at h
      · rename_i v hv
        exact absurd (hv.trans (congrArg some h)) (roleStep_not_taken _ _ _ _ _ _)
      · rename_i hr
        refine ⟨blocksStep_taken_first h, fun hn => absurd (hn.symm.trans he) nofun, fun e' he' => ?_⟩
        cases he.symm.trans he'
        exact roleStep_passed_first hr

theorem judgeTemplate_taken_first {ch : Chan} {b : List Byte} {s t : State} (h : judgeTemplate ch b s = .taken t) :
    s.olderWaiter ch .templateBuffer = false := by
  obtain ⟨-, h⟩ := passes_refusal h
  obtain ⟨-, h⟩ := passes_refusal h
  obtain ⟨-, h⟩ := passes_refusal h
  split at h
  · cases h
  · split at h
    · cases h
    · simpa using (passes_deferral h).1

theorem judgeFont_taken_first {ch : Chan} {b : List Byte} {s t : State} (h : judgeFont ch b s = .taken t) :
    s.olderWaiter ch .fontLock = false := by
  obtain ⟨-, h⟩ := passes_refusal h
  exact not_or_right (passes_deferral h).1

theorem judgeGlyph_taken_first {ch : Chan} {b : List Byte} {s t : State} (h : judgeGlyph ch b s = .taken t) :
    s.olderWaiter ch .fontLock = false := by
  obtain ⟨-, h⟩ := passes_refusal h
  obtain ⟨-, h⟩ := passes_refusal h
  obtain ⟨-, h⟩ := passes_refusal h
  exact not_or_right (passes_deferral h).1

theorem judgePage_taken_first {ch : Chan} {b : List Byte} {s t : State} (h : judgePage ch b s = .taken t) :
    s.olderWaiter ch .pageSlot = false := by
  obtain ⟨-, h⟩ := passes_refusal h
  obtain ⟨-, h⟩ := passes_refusal h
  split at h
  · cases h
  · obtain ⟨-, h⟩ := passes_refusal h
    split at h
    · cases h
    · split at h
      · cases h
      · cases h
      · cases h
      · exact not_or_right (passes_deferral h).1

theorem judgeQuery_taken_first {ch : Chan} {b : List Byte} {s t : State} (h : judgeQuery ch b s = .taken t) :
    s.olderWaiter ch .returnSpace = false := by
  unfold judgeQuery at h
  dsimp only at h
  split at h
  · cases h
  · obtain ⟨-, h⟩ := passes_refusal h
    exact not_or_right (passes_deferral h).1

/-! ## The examination (R15) -/

theorem waitOf_congr {s t : State} (h : t.waiting = s.waiting) (ch : Chan) : t.waitOf ch = s.waitOf ch := by
  rw [State.waitOf, h, State.waitOf]

/-- A channel whose entry has been removed waits for nothing. -/
theorem waitOf_filtered {s t : State} {ch : Chan} (h : t.waiting = s.waiting.filter (·.ch ≠ ch)) : t.waitOf ch = none := by
  rw [State.waitOf, h, List.find?_eq_none]
  intro e he
  simpa using (List.mem_filter.1 he).2

/-- An entry whose record is deferred again is the same entry with the kind now named (R13). -/
theorem waitOf_rekinded {s t : State} {ch : Chan} {kind : Resource} {e : WaitEntry} (he : s.waitOf ch = some e)
    (h : t.waiting = s.waiting.map fun x => if x.ch = ch then { x with kind := kind } else x) :
    t.waitOf ch = some { e with kind := kind } := by
  rw [State.waitOf] at he ⊢
  rw [h]
  generalize s.waiting = l at he
  induction l with
  | nil => cases he
  | cons a rest ih =>
    by_cases ha : a.ch = ch
    · have : a = e := by simpa [List.find?_cons, ha] using he
      subst this
      simp [ha]
    · rw [List.find?_cons_of_neg (by simpa using ha)] at he
      rw [List.map_cons, if_neg ha, List.find?_cons_of_neg (by simpa using ha)]
      exact ih he

theorem concluded_waiting (tag : Nat) (s : State) : (pump (judgeStore tag s)).waiting = s.waiting :=
  ((judgeStore_sameLink tag s).trans (pump_sameLink _)).2

theorem skipRefusedHead_waiting (ch : Chan) (b : List Byte) (s : State) : (skipRefusedHead ch b s).waiting = s.waiting := by
  unfold skipRefusedHead
  split <;> rfl

/-- One entry of a walk that is presented again: what its owner's verdict makes of it (R15). -/
theorem examineEntry_presented {noted : List Resource} {ch : Chan} {s : State} {e : WaitEntry} (he : s.waitOf ch = some e)
    (hk : e.kind ∉ noted) :
    examineEntry (noted, s) ch =
      match judgeRecord ch s.chans[ch].front s with
      | .taken t => (noted, pump (conclude ch s.chans[ch].front (.taken t) s))
      | .refused reason extra => (noted, pump (conclude ch s.chans[ch].front (.refused reason extra) s))
      | .deferred kind => (kind :: noted, pump (judgeStore (recTag s.chans[ch].front)
          { s with waiting := s.waiting.map fun x => if x.ch = ch then { x with kind := kind } else x })) := by
  have hn : noted.contains e.kind = false := by simpa using hk
  unfold examineEntry
  simp only [he, hn, Bool.false_eq_true, if_false]
  cases judgeRecord ch s.chans[ch].front s with
  | taken t =>
    have hw : (pump (conclude ch s.chans[ch].front (.taken t) s)).waiting = t.waiting.filter (·.ch ≠ ch) := by
      rw [conclude, concluded_waiting, dropFront_waiting]
      rfl
    simp only [waitOf_filtered hw]
  | refused reason extra =>
    have hw : (pump (conclude ch s.chans[ch].front (.refused reason extra) s)).waiting = s.waiting.filter (·.ch ≠ ch) := by
      rw [conclude, concluded_waiting]
      simp only [dropFront_waiting, skipRefusedHead_waiting, notify_waiting]
      rfl
    simp only [waitOf_filtered hw]
  | deferred kind =>
    have hd : conclude ch s.chans[ch].front (.deferred kind) s = judgeStore (recTag s.chans[ch].front)
        { s with waiting := s.waiting.map fun x => if x.ch = ch then { x with kind := kind } else x } := by
      have hst : s.stalled ch = true := by rw [State.stalled, he]; rfl
      obtain ⟨-, e⟩ | ⟨h, -⟩ := deferRecord_cases ch kind s
      · rw [conclude]
        simp only [e]
      · rw [hst] at h; cases h
    have hw := concluded_waiting (recTag s.chans[ch].front)
      { s with waiting := s.waiting.map fun x => if x.ch = ch then { x with kind := kind } else x }
    rw [hd]
    simp only [waitOf_rekinded he hw]

/-- Settles O51: the bounds by the moves of a step, the order of waiters by `olderWaiter_iff` and what each owner asks before it
takes a record, and the walk by the owner's verdict on each entry. -/
theorem stepKeepsQueues : Obligations.StepKeepsQueues := by
  refine ⟨step_keeps_queue_waiting, olderWaiter_iff, fun ch b s t => ⟨judgeJobOpen_taken_first, judgeRoster_taken_first,
    fun h => ?_, judgeTemplate_taken_first, judgeFont_taken_first, judgeGlyph_taken_first, judgePage_taken_first,
    judgeQuery_taken_first⟩, fun _ => rfl, fun noted ch s => ?_⟩
  · obtain ⟨hb, hn, he⟩ := judgeHead_taken_first h
    refine ⟨hb, ?_⟩
    split
    · rename_i e; exact hn e
    · rename_i e h; exact he e h
  split
  · rename_i he
    simp only [examineEntry, he]
  · rename_i e he
    dsimp only
    split
    · rename_i hk
      have hn : noted.contains e.kind = true := by simpa using hk
      simp only [examineEntry, he, hn, if_true]
    · rename_i hk
      rw [examineEntry_presented he hk]
      cases judgeRecord ch s.chans[ch].front s <;> rfl

end Sys2Proof.Machine
end

section
/-! PROOF. The step, the reset input, link frames and the stall limit (1.1 to 1.3, 1.7, 11.7). -/

namespace Sys2Proof.Machine

/-! ## The step -/

theorem due_cleared (s : State) : s.cleared.due = s.due := by
  have hp : s.cleared.pickReleasable [] s.cleared.returnQueue = s.pickReleasable [] s.returnQueue :=
    pickReleasable_congr (s := s) (t := s.cleared) rfl rfl [] _
  unfold State.due
  rw [hp]
  rfl

theorem step_idle {s : State} (h : s.pending = []) : step s = .next (tick s) := by rw [step, h]

theorem tick_inReset {s : State} (h : s.inReset = true) : tick s = { s with out := [], now := s.now + 1 } := if_pos h

theorem tick_up {s : State} (h : s.inReset = false) : tick s = match choose s.due s.cleared with
    | some (d, t) => runDue d t
    | none => { s with out := [], now := s.now + 1 } := by
  have hc : s.cleared.inReset = false := h
  rw [← due_cleared s]
  show (if s.cleared.inReset = true then _ else _) = _
  rw [hc]
  rfl

/-- Settles O1: a command at the front, else the one timer that is due, else the clock's advance. -/
theorem stepTakesFront : Obligations.StepTakesFront := by
  refine ⟨fun c rest s h => by rw [step, h], fun s hp => ⟨fun hr => ?_, fun hr hd => ?_, fun d hr hd => ?_⟩⟩
  · rw [step_idle hp, tick_inReset hr]
  · rw [step_idle hp, tick_up hr, hd]; rfl
  · rw [step_idle hp, tick_up hr, hd]; rfl

/-! ## The reset values and the reset input -/

theorem reset_chan (ch : Chan) : State.reset.chans[ch] = Channel.reset := by simp [State.reset]

theorem reset_template (i : Fin 12) : State.reset.templates[i] = none := by simp [State.reset]

theorem reset_font (i : Fin 2) : State.reset.fonts[i] = { metrics := none, glyphs := [] } := by simp [State.reset]

theorem reset_gate (cls : NoticeClass) : State.reset.gates[classIndex cls] =
    { last := none, overrun := false, interval := if cls = .roster ∨ cls = .portrait then 1000 else 0 } := by
  cases cls <;> rfl

/-- Settles O2. -/
theorem resetValues : Obligations.ResetValues := by
  refine ⟨fun ch => ?_, rfl, rfl, rfl, rfl, ?_, rfl, rfl, rfl, rfl, reset_template, fun i => ?_, rfl, rfl, rfl, rfl, rfl, rfl,
    rfl, rfl, rfl, rfl, rfl, reset_gate⟩
  · rw [reset_chan]
    exact ⟨rfl, rfl, rfl, rfl, rfl, rfl, rfl, rfl, rfl, rfl, rfl, rfl⟩
  · exact List.append_nil _
  · rw [reset_font]; exact ⟨rfl, rfl⟩

theorem reset_settingsLegal : SettingsLegal State.reset where
  stall := by decide
  target := by decide
  lead := by decide
  lowMark := by decide
  intervals cls := by
    rw [reset_gate]
    show (if _ then 1000 else 0) ≤ Config.intervalMax
    split <;> decide
  reply := rfl

theorem reset_tablesLegal : TablesLegal State.reset := by
  refine ⟨fun i t h => ?_, fun i m h => ?_⟩
  · rw [reset_template] at h; cases h
  · rw [reset_font] at h; cases h

theorem reset_jobsLegal : JobsLegal State.reset :=
  ⟨Nat.zero_le _, List.nodup_nil, .nil, fun _ h => absurd h List.not_mem_nil⟩

theorem reset_entriesLegal : EntriesLegal State.reset :=
  ⟨Nat.zero_le _, List.nodup_nil, fun _ h => absurd h List.not_mem_nil⟩

theorem reset_buffersBalance : BuffersBalance State.reset := by
  simp [BuffersBalance, State.reset]

theorem reset_pagesLegal : PagesLegal State.reset :=
  ⟨Nat.zero_le _, fun _ h => absurd h List.not_mem_nil, fun _ h => absurd h List.not_mem_nil, Nat.zero_le _⟩

theorem reset_storeJudged : StoreJudged State.reset := by
  have hc : State.reset.freeCount = Config.blockCount := rfl
  unfold StoreJudged
  rw [hc, if_neg (by decide)]
  decide

/-- Settles O3. -/
theorem resetLegal : Obligations.ResetLegal :=
  ⟨storeWf_nil, ⟨Nat.zero_le _, Nat.zero_le _⟩, List.nodup_nil, reset_channelsLegal, reset_readyJudged, reset_settingsLegal,
    reset_tablesLegal, reset_jobsLegal, reset_entriesLegal, fun _ h => absurd h List.not_mem_nil, rfl, List.nodup_nil, reset_buffersBalance, reset_pagesLegal,
    ⟨by decide, Nat.zero_le _⟩, reset_storeJudged⟩

theorem leaveReset_low {s : State} (h : s.inReset = true) :
    leaveReset s = sendReady true { s with inReset := false, out := [] } := if_pos h

/-- Settles O4. -/
theorem resetInput : Obligations.ResetInput := by
  refine ⟨fun s => ?_, fun s h => ?_, fun s t h => ?_, fun s h => ?_⟩
  · show Host.Outcome.next (masterReset s) = _
    unfold masterReset
    cases s.sending <;> rfl
  · show Host.Outcome.next (leaveReset s) = _
    rw [leaveReset_low h]; rfl
  · cases h
    show Host.Outcome.next (leaveReset (masterReset s)) = _
    rw [leaveReset_low rfl]; rfl
  · show Host.Outcome.next (leaveReset s) = _
    rw [leaveReset, if_neg (by rw [h]; decide)]

theorem whenUp_low {s : State} (h : s.inReset = true) (f : State → State) : whenUp f s = { s with out := [] } := if_pos h

/-- Settles O5: but for the reset input's own commands, a command acts through `whenUp`. -/
theorem lostInReset : Obligations.LostInReset := by
  intro c s h hm hh
  cases c
  case masterReset => exact absurd rfl hm
  case resetInputHigh => exact absurd rfl hh
  all_goals exact congrArg Host.Outcome.next (whenUp_low h _)

/-! ## Link frames (R1, R3, R5) -/

theorem exec_linkFrame_up {s : State} (h : s.inReset = false) (ch : Chan) (sync : Bool) (payload : List Byte) :
    exec (.linkFrame ch sync payload) s = .next (follow (frameArrives ch sync payload s.cleared)) :=
  congrArg Host.Outcome.next (whenUp_up h _)

theorem frameArrives_overflows {ch : Chan} {sync : Bool} {payload : List Byte} {s : State} (ha : s.chans[ch].mode = .active)
    (hp : s.chans[ch].space < payload.length) : frameArrives ch sync payload s = overflowFrame ch s := by
  unfold frameArrives
  rw [ha]
  exact if_neg (Nat.not_le.2 hp)

theorem frameArrives_resync {ch : Chan} {sync : Bool} {payload : List Byte} {s : State} (hr : s.chans[ch].mode = .resync) :
    frameArrives ch sync payload s =
      if sync then endResync ch payload s else modChan ch (fun c => { c with dropped := bump c.dropped }) s := by
  unfold frameArrives
  rw [hr]

/-- Settles O6. -/
theorem linkFrame : Obligations.LinkFrame := by
  intro ch sync payload s hup
  rw [exec_linkFrame_up hup]
  refine ⟨fun ha hp => ?_, fun ha hp => ?_, fun hr hs => ?_, fun hr hs => ?_⟩
  · rw [frameArrives_fits (s := s.cleared) ha hp]
  · rw [frameArrives_overflows (s := s.cleared) ha hp]; rfl
  · rw [frameArrives_resync (s := s.cleared) hr, hs]; rfl
  · rw [frameArrives_resync (s := s.cleared) hr, hs]; rfl

/-! ## The stall limit (R16, R17) -/

theorem exec_stallLimitExpiry_up {s : State} (h : s.inReset = false) (ch : Chan) :
    exec (.stallLimitExpiry ch) s = .next (follow (stallExpiry ch s.cleared)) :=
  congrArg Host.Outcome.next (whenUp_up h _)

theorem waitOf_ch {s : State} {ch : Chan} {e : WaitEntry} (h : s.waitOf ch = some e) : e.ch = ch := by
  simpa using List.find?_some h

/-- A discarded record that is a HEAD with its key leaves the binding SKIP with that key (R11, R16). -/
theorem discardWaiting_head {cause : DropCause} {s : State} {e : WaitEntry}
    (hk : recKind s.chans[e.ch].front = some .portraitHead) (hl : 12 ≤ s.chans[e.ch].front.length) :
    discardWaiting cause s e = dropFront e.ch s.chans[e.ch].front.length
      (setBinding e.ch (.skipping (field s.chans[e.ch].front 8 4)) (dropWaiting e s.chans[e.ch].front cause s)) := by
  have hf : recKey? s.chans[e.ch].front = some (field s.chans[e.ch].front 8 4) := if_pos hl
  unfold discardWaiting
  simp only [hk, hf]

theorem discardWaiting_other {cause : DropCause} {s : State} {e : WaitEntry}
    (hk : recKind s.chans[e.ch].front ≠ some .portraitHead) :
    discardWaiting cause s e = dropFront e.ch s.chans[e.ch].front.length (dropWaiting e s.chans[e.ch].front cause s) := by
  unfold discardWaiting
  dsimp only
  split
  · rename_i h _; exact absurd h hk
  · rfl

theorem stallExpiry_none {ch : Chan} {s : State} (h : s.waitOf ch = none) : stallExpiry ch s = s := by
  rw [stallExpiry, h]

theorem stallExpiry_some {ch : Chan} {s : State} {e : WaitEntry} (h : s.waitOf ch = some e) :
    stallExpiry ch s = discardWaiting .limit (advanceTo (e.start + s.stallLimit * Config.unitsPerMs) s) e := by
  rw [stallExpiry, h]

/-- Settles O38: the waiting record is discarded at the time of its limit, as a HEAD with its key or as another record. -/
theorem Settled.stallExpiry : Obligations.StallExpiry := by
  intro ch s hup
  rw [exec_stallLimitExpiry_up hup]
  refine ⟨fun hn => ?_, fun e he => ?_⟩
  · rw [stallExpiry_none (s := s.cleared) hn]
  · rw [stallExpiry_some (s := s.cleared) he]
    obtain rfl := waitOf_ch he
    refine ⟨fun hk hl => ?_, fun hk => ?_⟩
    · rw [discardWaiting_head (s := advanceTo _ s.cleared) hk hl]; rfl
    · rw [discardWaiting_other (s := advanceTo _ s.cleared) hk]; rfl

end Sys2Proof.Machine
end

section
/-! PROOF. What entering RESYNC does (R4, R12, R17, R53, R54). -/

namespace Sys2Proof.Machine

/-! ## The filling version of a key leaves (R53) -/

theorem fillingVersion_none_iff {s : State} {key : Nat} :
    s.fillingVersion key = none ↔ ∀ e, s.entry? key = some e → e.incoming.filter Version.filling = none := by
  unfold State.fillingVersion
  cases s.entry? key <;> simp

theorem failPortrait_filling {s : State} {key : Nat} {e : Entry} {v : Version} (reason : FailReason) (tag : Nat)
    (extra : List Item) (he : s.entry? key = some e) (hv : e.incoming.filter Version.filling = some v) :
    failPortrait key reason tag extra s = notify .portraitFailed tag key ([.two v.number, .two reason.code] ++ extra)
      { s with entries := replaceFirst (fun x => x.key = key) { e with incoming := none } s.entries
               freeBlocks := joinRuns s.freeBlocks v.blocks, wake := true } := by
  obtain rfl := entry?_key he
  unfold failPortrait
  simp only [he, hv]
  rfl

theorem failPortrait_none {s : State} {key : Nat} (reason : FailReason) (tag : Nat) (extra : List Item)
    (h : s.fillingVersion key = none) : failPortrait key reason tag extra s = s := by
  rw [fillingVersion_none_iff] at h
  unfold failPortrait
  split
  · rfl
  · rename_i e he
    rw [h e he]

theorem entry?_replaceFirst {s : State} {key : Nat} {e e' : Entry} (he : s.entry? key = some e) (hk : e'.key = key) :
    (replaceFirst (fun x => x.key = key) e' s.entries).find? (·.key = key) = some e' :=
  find?_replaceFirst _ (by simpa using hk) _ he

theorem failPortrait_fillingVersion (key : Nat) (reason : FailReason) (tag : Nat) (extra : List Item) (s : State) :
    (failPortrait key reason tag extra s).fillingVersion key = none := by
  cases h : s.fillingVersion key with
  | none => rw [failPortrait_none _ _ _ h, h]
  | some v =>
    unfold State.fillingVersion at h
    split at h
    · cases h
    · rename_i e he
      rw [failPortrait_filling _ _ _ he h, State.fillingVersion, State.entry?, notify_entries]
      have hk : e.key = key := entry?_key he
      have hr : (replaceFirst (fun x => x.key = key) { e with incoming := none } s.entries).find? (·.key = key) =
          some { e with incoming := none } := entry?_replaceFirst he hk
      dsimp only
      rw [hr]
      rfl

/-! ## RESYNC -/

theorem evalReady_self (ch : Chan) (s : State) :
    (evalReady ch s).chans[ch] = { s.chans[ch] with ready := s.chans[ch].readyLevel } := by
  obtain ⟨h, e⟩ | ⟨-, e⟩ := evalReady_cases ch s
  · rw [e, ← h]
  · rw [e, sendReady_chans, modChan_self]

theorem abandonOpen_opened {ch : Chan} {tag : Nat} {after : Nat → Binding} {s : State} {key n : Nat}
    (h : s.chans[ch].binding = .opened key n) :
    abandonOpen ch tag after s = setBinding ch (after key) (failPortrait key .abandoned tag [] s) := by
  unfold abandonOpen
  rw [h]

theorem abandonOpen_closed {ch : Chan} {tag : Nat} {after : Nat → Binding} {s : State}
    (h : ∀ key n, s.chans[ch].binding ≠ .opened key n) : abandonOpen ch tag after s = s := by
  unfold abandonOpen
  split
  · rename_i key n hb; exact absurd hb (h key n)
  · rfl

theorem abandonOpen_other {ch c : Chan} (tag : Nat) (after : Nat → Binding) (s : State) (h : c ≠ ch) :
    (abandonOpen ch tag after s).chans[c] = s.chans[c] := by
  unfold abandonOpen
  split
  · rw [setBinding, modChan_other _ _ h, failPortrait_chans]
  · rfl

/-- The state that the abandonment of a channel's open portrait leaves, but for the channel's binding (R53, R54). -/
def State.abandoned (ch : Chan) (tag : Nat) (s : State) : State :=
  match s.chans[ch].binding with
  | .opened key _ => failPortrait key .abandoned tag [] s
  | _ => s

theorem abandoned_sameLink (ch : Chan) (tag : Nat) (s : State) : SameLink s (s.abandoned ch tag) := by
  unfold State.abandoned
  split
  · exact failPortrait_sameLink ..
  · exact .rfl' s

/-- A change of the channel that sets its binding does not see how the abandonment left it. -/
theorem modChan_abandonOpen {ch : Chan} {f : Channel → Channel} (tag : Nat) (after : Nat → Binding) (s : State)
    (hf : ∀ (c : Channel) (b : Binding), f { c with binding := b } = f c) :
    modChan ch f (abandonOpen ch tag after s) = modChan ch f (s.abandoned ch tag) := by
  unfold abandonOpen State.abandoned
  cases s.chans[ch].binding with
  | opened key n =>
    dsimp only
    rw [setBinding, modChan_modChan]
    exact modChan_congr (hf _ _)
  | skipping key => rfl
  | unbound => rfl

/-- The channel's change as it enters RESYNC (R4). -/
def Channel.emptied (tag : Nat) (c : Channel) : Channel :=
  { c with buffer := [], mode := .resync, binding := .unbound, resetTag := tag }

/-- The stream of a channel is lost: its open portrait is abandoned, the channel emptied, its waiting record dropped, and its
indication evaluated (R4, R17, R54). -/
theorem loseStream_eq (ch : Chan) (tag : Nat) (s : State) : loseStream ch tag s = evalReady ch
    (match s.waitOf ch with
      | none => modChan ch (Channel.emptied tag) (s.abandoned ch tag)
      | some e => dropWaiting e s.chans[ch].front .resync (modChan ch (Channel.emptied tag) (s.abandoned ch tag))) := by
  have h := modChan_abandonOpen (ch := ch) (f := Channel.emptied tag) tag (fun _ => .unbound) s fun _ _ => rfl
  rw [← h]
  unfold loseStream
  dsimp only
  cases s.waitOf ch <;> rfl

theorem enterResync_resync {ch : Chan} {s : State} (tag : Nat) (h : s.chans[ch].mode = .resync) :
    enterResync ch tag s = modChan ch (fun c => { c with resetTag := tag }) s := by
  unfold enterResync
  rw [h]

theorem enterResync_active {ch : Chan} {s : State} (tag : Nat) (h : s.chans[ch].mode = .active) :
    enterResync ch tag s = loseStream ch tag s := by
  unfold enterResync
  rw [h]

theorem dropWaiting_chans (e : WaitEntry) (b : List Byte) (cause : DropCause) (s : State) :
    (dropWaiting e b cause s).chans =
      (modChan e.ch (fun c => { c with discarded := bump c.discarded }) s).chans := by
  unfold dropWaiting
  rw [wakeUp_chans, notify_chans]
  rfl

theorem dropWaiting_waiting (e : WaitEntry) (b : List Byte) (cause : DropCause) (s : State) :
    (dropWaiting e b cause s).waiting = s.waiting.filter (·.ch ≠ e.ch) := by
  unfold dropWaiting
  rw [wakeUp_waiting, notify_waiting]
  rfl

theorem dropWaiting_entries (e : WaitEntry) (b : List Byte) (cause : DropCause) (s : State) :
    (dropWaiting e b cause s).entries = s.entries := by
  unfold dropWaiting
  rw [wakeUp_entries, notify_entries]
  rfl

theorem stalled_eq_waitOf {s : State} {ch : Chan} : s.stalled ch = (s.waitOf ch).isSome := rfl

theorem emptied_self (ch : Chan) (tag : Nat) (s : State) :
    (modChan ch (Channel.emptied tag) (s.abandoned ch tag)).chans[ch] = s.chans[ch].emptied tag := by
  rw [modChan_self, (abandoned_sameLink ch tag s).1]

/-- A channel without waiting records in a state has none in its waiting list. -/
theorem filter_of_waitOf_none {s : State} {ch : Chan} (h : s.waitOf ch = none) :
    s.waiting.filter (·.ch ≠ ch) = s.waiting := by
  rw [List.filter_eq_self]
  intro e he
  simpa using List.find?_eq_none.1 h e he

theorem loseStream_waiting (ch : Chan) (tag : Nat) (s : State) :
    (loseStream ch tag s).waiting = s.waiting.filter (·.ch ≠ ch) := by
  rw [loseStream_eq, evalReady_waiting]
  cases h : s.waitOf ch with
  | none =>
    show (s.abandoned ch tag).waiting = _
    rw [(abandoned_sameLink ch tag s).2, filter_of_waitOf_none h]
  | some e =>
    show (dropWaiting e _ _ _).waiting = _
    rw [dropWaiting_waiting, waitOf_ch h, modChan_waiting, (abandoned_sameLink ch tag s).2]

theorem loseStream_self (ch : Chan) (tag : Nat) (s : State) (hm : s.chans[ch].watermark ≤ Config.watermarkMax) :
    (loseStream ch tag s).chans[ch] = { s.chans[ch].emptied tag with
      ready := true
      discarded := if s.stalled ch then bump s.chans[ch].discarded else s.chans[ch].discarded } := by
  have level : ∀ c : Channel, c.buffer = [] → c.watermark = s.chans[ch].watermark → c.readyLevel = true := by
    intro c hb hw
    rw [Channel.readyLevel, Channel.space, hb, hw, decide_eq_true_eq]
    exact Nat.le_trans hm (by decide)
  rw [loseStream_eq, evalReady_self, stalled_eq_waitOf]
  cases h : s.waitOf ch with
  | none =>
    dsimp only
    rw [emptied_self, level (s.chans[ch].emptied tag) rfl rfl]
    rfl
  | some e =>
    obtain rfl := waitOf_ch h
    dsimp only
    rw [dropWaiting_chans, modChan_self, emptied_self, level { s.chans[e.ch].emptied tag with
      discarded := bump (s.chans[e.ch].emptied tag).discarded } rfl rfl]
    rfl

theorem loseStream_other {ch c : Chan} (tag : Nat) (s : State) (h : c ≠ ch) :
    (loseStream ch tag s).chans[c] = s.chans[c] := by
  have he : (modChan ch (Channel.emptied tag) (s.abandoned ch tag)).chans[c] = s.chans[c] := by
    rw [modChan_other _ _ h, (abandoned_sameLink ch tag s).1]
  rw [loseStream_eq, evalReady_other _ h]
  cases hw : s.waitOf ch with
  | none => exact he
  | some e =>
    obtain rfl := waitOf_ch hw
    dsimp only
    rw [dropWaiting_chans, modChan_other _ _ h, he]

theorem loseStream_entries (ch : Chan) (tag : Nat) (s : State) :
    (loseStream ch tag s).entries = (s.abandoned ch tag).entries := by
  rw [loseStream_eq, evalReady_entries]
  cases s.waitOf ch with
  | none => rfl
  | some e => exact dropWaiting_entries ..

theorem fillingVersion_congr {s t : State} (h : t.entries = s.entries) (key : Nat) :
    t.fillingVersion key = s.fillingVersion key := by
  unfold State.fillingVersion State.entry?
  rw [h]

theorem loseStream_fillingVersion {ch : Chan} {tag : Nat} {s : State} {key n : Nat}
    (h : s.chans[ch].binding = .opened key n) : (loseStream ch tag s).fillingVersion key = none := by
  have ha : s.abandoned ch tag = failPortrait key .abandoned tag [] s := by
    unfold State.abandoned
    rw [h]
  rw [fillingVersion_congr (loseStream_entries ch tag s), ha, failPortrait_fillingVersion]

/-- The abandonment, its notice with reason ABANDONED (R53, R54, log entry 9). -/
theorem abandoned_eq (ch : Chan) (tag : Nat) (s : State) : s.abandoned ch tag =
    match s.chans[ch].binding with
    | .opened key _ =>
      match s.entry? key with
      | none => s
      | some e =>
        match e.incoming.filter Version.filling with
        | none => s
        | some v => notify .portraitFailed tag key [.two v.number, .two 3] { s with
            entries := replaceFirst (fun x => x.key = key) { e with incoming := none } s.entries
            freeBlocks := joinRuns s.freeBlocks v.blocks, wake := true }
    | _ => s := by
  unfold State.abandoned
  cases s.chans[ch].binding with
  | unbound => rfl
  | skipping key => rfl
  | opened key n =>
    dsimp only
    cases he : s.entry? key with
    | none =>
      exact failPortrait_none _ _ _ (fillingVersion_none_iff.2 fun e h => absurd (he.symm.trans h) nofun)
    | some e =>
      dsimp only
      cases hv : e.incoming.filter Version.filling with
      | none =>
        refine failPortrait_none _ _ _ (fillingVersion_none_iff.2 fun e' h => ?_)
        cases he.symm.trans h
        exact hv
      | some v => exact failPortrait_filling _ _ _ he hv

/-- Settles O7: a channel in RESYNC takes the new tag; an ACTIVE one loses its stream. -/
theorem resyncEntered : Obligations.ResyncEntered := by
  refine ⟨fun ch tag s h => enterResync_resync tag h, fun ch tag s h hm => ?_⟩
  rw [enterResync_active tag h]
  refine ⟨loseStream_self ch tag s hm, fun c hc => loseStream_other tag s hc, loseStream_waiting ch tag s,
    fun key n hb => loseStream_fillingVersion hb, ?_⟩
  dsimp only
  rw [loseStream_eq, abandoned_eq]
  cases hw : s.waitOf ch with
  | none => rfl
  | some e =>
    obtain rfl := waitOf_ch hw
    rfl

end Sys2Proof.Machine
end

section
/-! PROOF. What is sent reads back: frames, press messages, and the records of every command (R1, R6, R179, R182, 11.2, 11.3). -/

namespace Sys2Proof.Machine

/-! ## Frames and press messages -/

theorem beBytes_one (n : Nat) : beBytes 1 n = [BitVec.ofNat 8 n] := by simp [beBytes]

/-- The first byte of a frame carries the channel in its low bits and SYNC in bit 7 (11.2). -/
theorem frameHead_reads (ch : Chan) (sync : Bool) :
    (BitVec.ofNat 8 (ch.val + 128 * sync.toNat)).toNat % 4 = ch.val ∧
      bit (BitVec.ofNat 8 (ch.val + 128 * sync.toNat)).toNat 7 = sync := by
  revert ch sync
  decide

theorem linkFrame_readsBack (ch : Chan) (sync : Bool) (payload : List Byte) (h : (Instr.linkFrame ch sync payload).wf = true) :
    decodeForwardFrame (linkFrameBytes ch sync payload) = some (.linkFrame ch sync payload) := by
  simp only [Instr.wf, Config.maxPayload, Bool.and_eq_true, decide_eq_true_eq] at h
  obtain ⟨hch, hsync⟩ := frameHead_reads ch sync
  have hlen : payload.length = (BitVec.ofNat 8 (payload.length - 1)).toNat + 1 := by
    rw [BitVec.toNat_ofNat, Nat.mod_eq_of_lt (by omega)]
    omega
  simp only [decodeForwardFrame, linkFrameCommand, linkFrameBytes, beBytes_one, List.cons_append, List.nil_append]
  rw [if_pos hlen]
  simp only [hch, hsync]

theorem pressBytes_reads {type id : Nat} (ht : type < 256) (hi : id < 65536) : (pressBytes type id).length = 4 ∧
    field (pressBytes type id) 0 1 = type ∧ field (pressBytes type id) 2 2 = id := by
  refine ⟨by simp [pressBytes], ?_, ?_⟩
  · simp [pressBytes, field_beBytes_append, ht]
  · simp [pressBytes, field_after, field_beBytes, hi]

/-- The five messages of the press (9.2, R182). -/
theorem press_readsBack {id : Nat} (hi : id < 65536) : decodePressMessage (pressBytes 17 id) = some (.start id) ∧
    decodePressMessage (pressBytes 18 id) = some .demand ∧ decodePressMessage (pressBytes 19 id) = some (.done id) ∧
    decodePressMessage (pressBytes 20 id) = some (.fault id) ∧ decodePressMessage (pressBytes 21 id) = some .restart := by
  have read : ∀ type < 256, (pressBytes type id).length = 4 ∧ field (pressBytes type id) 0 1 = type ∧
      field (pressBytes type id) 2 2 = id := fun type ht => pressBytes_reads ht hi
  refine ⟨?_, ?_, ?_, ?_, ?_⟩
  · simp [decodePressMessage, pressCommand, read 17 (by decide)]
  · simp [decodePressMessage, pressCommand, read 18 (by decide)]
  · simp [decodePressMessage, pressCommand, read 19 (by decide)]
  · simp [decodePressMessage, pressCommand, read 20 (by decide)]
  · simp [decodePressMessage, pressCommand, read 21 (by decide)]

theorem badMessage_readsBack {type id : Nat} (hi : id < 65536) (h : (Instr.badMessage type id).wf = true) :
    decodePressMessage (pressBytes type id) = some (.badMessage type id) := by
  simp only [Instr.wf, fitsBytes, Bool.and_eq_true, Bool.not_eq_true', decide_eq_true_eq] at h
  obtain ⟨⟨ht, hn⟩, -⟩ := h
  obtain ⟨hlen, htype, hid⟩ := pressBytes_reads (type := type) (by omega) hi
  simp only [decodePressMessage, pressCommand, hlen, htype, hid, if_true]
  have other : type ≠ 17 ∧ type ≠ 18 ∧ type ≠ 19 ∧ type ≠ 20 ∧ type ≠ 21 := by simpa using hn
  obtain ⟨h17, h18, h19, h20, h21⟩ := other
  split
  · exact absurd rfl h17
  · exact absurd rfl h18
  · exact absurd rfl h19
  · exact absurd rfl h20
  · exact absurd rfl h21
  · rfl

/-! ## The fields of a record (11.2, 11.3) -/

theorem rgbBytes_eq (c : Rgb) : rgbBytes c = beBytes 1 c.r.toNat ++ (beBytes 1 c.g.toNat ++ beBytes 1 c.b.toNat) := by
  simp [rgbBytes, beBytes]

/-- The record has the kind, the tag, the fields and what follows them that its form says. -/
structure RecordForm.Reads (form : RecordForm) (b : List Byte) : Prop where
  kind : recKindCode b = form.kind
  tag : recTag b = form.tag
  fields : ∀ f ∈ form.fields, field b f.1 f.2.1 = f.2.2
  rest : b.drop form.rest.1 = form.rest.2

/-- The fields of a record after its header are read off its body. -/
theorem reads_recordBytes {kind tag : Nat} {body : List Byte} {fields : List (Nat × Nat × Nat)} {rest : Nat × List Byte}
    (hk : kind < 256) (ht : tag < 4294967296) (hf : ∀ f ∈ fields, 8 ≤ f.1 ∧ field body (f.1 - 8) f.2.1 = f.2.2)
    (hr : 8 ≤ rest.1 ∧ body.drop (rest.1 - 8) = rest.2) :
    RecordForm.Reads ⟨kind, tag, fields, rest⟩ (recordBytes kind tag body) where
  kind := recKindCode_recordBytes tag body hk
  tag := recTag_recordBytes kind body ht
  fields f h := by rw [field_recordBytes _ _ _ _ (hf f h).1, (hf f h).2]
  rest := by rw [drop_recordBytes _ _ _ hr.1, hr.2]

/-- The record of a well-formed command reads as the form of the command. -/
structure ReadsBack (c : Instr) : Prop where
  reads : c.wf = true → ∀ ch b, c.wireRecord = some (ch, b) → ∃ form, recordForm c = some form ∧ form.Reads b

theorem unknownKind_readsBack (ch : Chan) (kind tag : Nat) (body : List Byte) : ReadsBack (.unknownKind ch kind tag body) := by
  refine ⟨?_⟩
  rintro hw _ _ ⟨⟩
  simp only [Instr.wf, fitsBytes, Bool.and_eq_true, decide_eq_true_eq, Nat.reducePow] at hw
  exact ⟨_, rfl, reads_recordBytes hw.1.1.1 hw.1.2 (by simp) ⟨Nat.le_refl 8, rfl⟩⟩

theorem jobOpen_readsBack (ch : Chan) (tag jobId target base limit : Nat) :
    ReadsBack (.jobOpen ch tag jobId target base limit) := by
  refine ⟨?_⟩
  rintro hw _ _ ⟨⟩
  simp only [Instr.wf, fitsBytes, Bool.and_eq_true, decide_eq_true_eq, Nat.reducePow] at hw
  exact ⟨_, rfl, reads_recordBytes (by decide) (by omega) (by simp [field_after, field_beBytes_append, field_beBytes, hw])
    (by simp [drop_after])⟩

theorem jobClose_readsBack (ch : Chan) (tag jobId : Nat) : ReadsBack (.jobClose ch tag jobId) := by
  refine ⟨?_⟩
  rintro hw _ _ ⟨⟩
  simp only [Instr.wf, fitsBytes, Bool.and_eq_true, decide_eq_true_eq, Nat.reducePow] at hw
  exact ⟨_, rfl, reads_recordBytes (by decide) (by omega) (by simp [field_beBytes_append, hw]) (by simp [drop_after])⟩

theorem roster_readsBack (ch : Chan) (tag key publication : Nat) (name : List Byte) :
    ReadsBack (.roster ch tag key publication name) := by
  refine ⟨?_⟩
  rintro hw _ _ ⟨⟩
  simp only [Instr.wf, fitsBytes, Bool.and_eq_true, decide_eq_true_eq, Nat.reducePow] at hw
  exact ⟨_, rfl, reads_recordBytes (by decide) (by omega) (by simp [field_after, field_beBytes_append, hw])
    (by simp [drop_after])⟩

theorem portraitHead_readsBack (ch : Chan) (tag key version width height faceX faceY faceW faceH fixedGain : Nat) :
    ReadsBack (.portraitHead ch tag key version width height faceX faceY faceW faceH fixedGain) := by
  refine ⟨?_⟩
  rintro hw _ _ ⟨⟩
  simp only [Instr.wf, fitsBytes, Bool.and_eq_true, decide_eq_true_eq, Nat.reducePow] at hw
  exact ⟨_, rfl, reads_recordBytes (by decide) (by omega) (by simp [field_after, field_beBytes_append, field_beBytes, hw])
    (by simp [drop_after])⟩

theorem portraitStrip_readsBack (ch : Chan) (tag key index lines : Nat) (pixels : List Byte) :
    ReadsBack (.portraitStrip ch tag key index lines pixels) := by
  refine ⟨?_⟩
  rintro hw _ _ ⟨⟩
  simp only [Instr.wf, fitsBytes, Bool.and_eq_true, decide_eq_true_eq, Nat.reducePow] at hw
  exact ⟨_, rfl, reads_recordBytes (by decide) (by omega) (by simp [field_after, field_beBytes_append, hw])
    (by simp [drop_after])⟩

theorem portraitEnd_readsBack (ch : Chan) (tag key total : Nat) : ReadsBack (.portraitEnd ch tag key total) := by
  refine ⟨?_⟩
  rintro hw _ _ ⟨⟩
  simp only [Instr.wf, fitsBytes, Bool.and_eq_true, decide_eq_true_eq, Nat.reducePow] at hw
  exact ⟨_, rfl, reads_recordBytes (by decide) (by omega) (by simp [field_after, field_beBytes_append, hw])
    (by simp [drop_after])⟩

theorem template_readsBack (ch : Chan) (tag number width height bandHeight : Nat) (background placeholder ink : Rgb)
    (slots : List SlotFields) :
    ReadsBack (.template ch tag number width height bandHeight background placeholder ink slots) := by
  refine ⟨?_⟩
  rintro hw _ _ ⟨⟩
  simp only [Instr.wf, fitsBytes, Config.maxRecord, Bool.and_eq_true, decide_eq_true_eq, Nat.reducePow] at hw
  have hn : slots.length < 65536 := by omega
  have hc : ∀ x : Byte, x.toNat < 256 := fun x => x.isLt
  exact ⟨_, rfl, reads_recordBytes (by decide) (by omega)
    (by simp [rgbBytes_eq, field_after, field_beBytes_append, hw, hn, hc]) (by simp [rgbBytes_eq, drop_after])⟩

theorem font_readsBack (ch : Chan) (tag number height tracking blank : Nat) :
    ReadsBack (.font ch tag number height tracking blank) := by
  refine ⟨?_⟩
  rintro hw _ _ ⟨⟩
  simp only [Instr.wf, fitsBytes, Bool.and_eq_true, decide_eq_true_eq, Nat.reducePow] at hw
  exact ⟨_, rfl, reads_recordBytes (by decide) (by omega) (by simp [field_after, field_beBytes_append, field_beBytes, hw])
    (by simp [beBytes_one])⟩

theorem glyph_readsBack (ch : Chan) (tag number code advance : Nat) (bitmap : List Byte) :
    ReadsBack (.glyph ch tag number code advance bitmap) := by
  refine ⟨?_⟩
  rintro hw _ _ ⟨⟩
  simp only [Instr.wf, fitsBytes, Bool.and_eq_true, decide_eq_true_eq, Nat.reducePow] at hw
  exact ⟨_, rfl, reads_recordBytes (by decide) (by omega) (by simp [field_after, field_beBytes_append, hw])
    (by simp [drop_after])⟩

theorem page_readsBack (ch : Chan) (tag pageId hold jobId number attempts : Nat) (title : List Byte) (keys : List Nat) :
    ReadsBack (.page ch tag pageId hold jobId number attempts title keys) := by
  refine ⟨?_⟩
  rintro hw _ _ ⟨⟩
  simp only [Instr.wf, fitsBytes, Bool.and_eq_true, decide_eq_true_eq, Nat.reducePow] at hw
  exact ⟨_, rfl, reads_recordBytes (by decide) (by omega) (by simp [field_after, field_beBytes_append, hw])
    (by simp [drop_after])⟩

theorem pageCancel_readsBack (ch : Chan) (tag pageId : Nat) : ReadsBack (.pageCancel ch tag pageId) := by
  refine ⟨?_⟩
  rintro hw _ _ ⟨⟩
  simp only [Instr.wf, fitsBytes, Bool.and_eq_true, decide_eq_true_eq, Nat.reducePow] at hw
  exact ⟨_, rfl, reads_recordBytes (by decide) (by omega) (by simp [field_beBytes_append, hw]) (by simp [drop_after])⟩

theorem setRecord_reads {tag param value : Nat} (ht : tag < 4294967296) (hp : param < 65536) (hv : value < 4294967296) :
    RecordForm.Reads ⟨64, tag, [(8, 1, 1), (12, 2, param), (16, 4, value)], 20, []⟩ (setRecord tag [(param, value)]) :=
  reads_recordBytes (by decide) ht (by simp [field_after, field_beBytes_append, field_beBytes, hp, hv]) (by simp [drop_after])

theorem queryRecord_reads {tag kind operand : Nat} (ht : tag < 4294967296) (hk : kind < 256) (ho : operand < 4294967296) :
    RecordForm.Reads ⟨65, tag, [(8, 1, kind), (12, 4, operand)], 16, []⟩ (queryRecord tag kind operand) :=
  reads_recordBytes (by decide) ht (by simp [field_after, field_beBytes_append, field_beBytes, hk, ho]) (by simp [drop_after])

theorem flagsClearRecord_reads {tag selection : Nat} (ht : tag < 4294967296) (hs : selection < 65536) :
    RecordForm.Reads ⟨66, tag, [(8, 2, selection)], 12, []⟩ (flagsClearRecord tag selection) :=
  reads_recordBytes (by decide) ht (by simp [field_beBytes_append, hs]) (by simp [drop_after])

theorem noticeFlush_readsBack (ch : Chan) (tag : Nat) : ReadsBack (.noticeFlush ch tag) := by
  refine ⟨?_⟩
  rintro hw _ _ ⟨⟩
  simp only [Instr.wf, fitsBytes, decide_eq_true_eq, Nat.reducePow] at hw
  exact ⟨_, rfl, reads_recordBytes (by decide) hw (by simp) ⟨Nat.le_refl 8, rfl⟩⟩

theorem channelReset_readsBack (ch : Chan) (tag target : Nat) : ReadsBack (.channelReset ch tag target) := by
  refine ⟨?_⟩
  rintro hw _ _ ⟨⟩
  simp only [Instr.wf, fitsBytes, Bool.and_eq_true, decide_eq_true_eq, Nat.reducePow] at hw
  exact ⟨_, rfl, reads_recordBytes (by decide) (by omega) (by simp [field_beBytes_append, hw]) (by simp [drop_after])⟩

theorem clear_readsBack (ch : Chan) (tag : Nat) : ReadsBack (.clear ch tag) := by
  refine ⟨?_⟩
  rintro hw _ _ ⟨⟩
  simp only [Instr.wf, fitsBytes, decide_eq_true_eq, Nat.reducePow] at hw
  exact ⟨_, rfl, reads_recordBytes (by decide) hw (by simp) ⟨Nat.le_refl 8, rfl⟩⟩

theorem intervalParam_lt (cls : NoticeClass) : intervalParam cls < 65536 := by cases cls <;> decide

/-- The six SET commands carry one pair each. -/
theorem set_readsBack (ch : Chan) (tag value : Nat) :
    (∀ target, ReadsBack (.setReadyWatermark ch tag target value)) ∧ ReadsBack (.setStallLimit ch tag value) ∧
    ReadsBack (.setGlobalTarget ch tag value) ∧ ReadsBack (.setLead ch tag value) ∧
    (∀ cls, ReadsBack (.setInterval ch tag cls value)) ∧ ReadsBack (.setStoreLowMark ch tag value) := by
  refine ⟨fun target => ?_, ?_, ?_, ?_, fun cls => ?_, ?_⟩
  all_goals
    refine ⟨?_⟩
    rintro hw _ _ ⟨⟩
    simp only [Instr.wf, fitsBytes, Bool.and_eq_true, decide_eq_true_eq, Nat.reducePow] at hw
  · exact ⟨_, rfl, setRecord_reads hw.1 (by omega) hw.2⟩
  · exact ⟨_, rfl, setRecord_reads hw.1 (by decide) hw.2⟩
  · exact ⟨_, rfl, setRecord_reads hw.1 (by decide) hw.2⟩
  · exact ⟨_, rfl, setRecord_reads hw.1 (by decide) hw.2⟩
  · exact ⟨_, rfl, setRecord_reads hw.1.1 (intervalParam_lt cls) hw.1.2⟩
  · exact ⟨_, rfl, setRecord_reads hw.1 (by decide) hw.2⟩

/-- The six QUERY commands carry a kind and an operand. -/
theorem query_readsBack (ch : Chan) (tag operand : Nat) : ReadsBack (.queryStatus ch tag) ∧
    ReadsBack (.queryChannel ch tag operand) ∧ ReadsBack (.queryEntry ch tag operand) ∧ ReadsBack (.queryPage ch tag operand) ∧
    ReadsBack (.queryJob ch tag operand) ∧ ReadsBack (.queryTemplate ch tag operand) := by
  refine ⟨?_, ?_, ?_, ?_, ?_, ?_⟩
  all_goals
    refine ⟨?_⟩
    rintro hw _ _ ⟨⟩
    simp only [Instr.wf, fitsBytes, Bool.and_eq_true, decide_eq_true_eq, Nat.reducePow] at hw
  · exact ⟨_, rfl, queryRecord_reads hw (by decide) (by decide)⟩
  all_goals exact ⟨_, rfl, queryRecord_reads hw.1 (by decide) hw.2⟩

/-- The three FLAGS CLEAR commands carry a selection of one flag. -/
theorem flagsClear_readsBack (ch : Chan) (tag : Nat) (target : Chan) : ReadsBack (.flagsClearOverflow ch tag target) ∧
    ReadsBack (.flagsClearFraming ch tag target) ∧ ReadsBack (.flagsClearStoreLowSeen ch tag) := by
  have hb : ∀ n < 8, 2 ^ n < 65536 := by decide
  refine ⟨?_, ?_, ?_⟩
  all_goals
    refine ⟨?_⟩
    rintro hw _ _ ⟨⟩
    simp only [Instr.wf, fitsBytes, decide_eq_true_eq, Nat.reducePow] at hw
  · exact ⟨_, rfl, flagsClearRecord_reads hw (hb _ (by omega))⟩
  · exact ⟨_, rfl, flagsClearRecord_reads hw (hb _ (by omega))⟩
  · exact ⟨_, rfl, flagsClearRecord_reads hw (by decide)⟩

theorem readsBack (c : Instr) : ReadsBack c := by
  cases c with
  | unknownKind ch kind tag body => exact unknownKind_readsBack ..
  | jobOpen ch tag jobId target base limit => exact jobOpen_readsBack ..
  | jobClose ch tag jobId => exact jobClose_readsBack ..
  | roster ch tag key publication name => exact roster_readsBack ..
  | portraitHead ch tag key version w h fx fy fw fh g => exact portraitHead_readsBack ..
  | portraitStrip ch tag key index lines pixels => exact portraitStrip_readsBack ..
  | portraitEnd ch tag key total => exact portraitEnd_readsBack ..
  | template ch tag n w h bh bg ph ink slots => exact template_readsBack ..
  | font ch tag number height tracking blank => exact font_readsBack ..
  | glyph ch tag number code advance bitmap => exact glyph_readsBack ..
  | page ch tag id hold job n attempts title keys => exact page_readsBack ..
  | pageCancel ch tag pageId => exact pageCancel_readsBack ..
  | setReadyWatermark ch tag target value => exact (set_readsBack ch tag value).1 target
  | setStallLimit ch tag value => exact (set_readsBack ch tag value).2.1
  | setGlobalTarget ch tag value => exact (set_readsBack ch tag value).2.2.1
  | setLead ch tag value => exact (set_readsBack ch tag value).2.2.2.1
  | setInterval ch tag cls value => exact (set_readsBack ch tag value).2.2.2.2.1 cls
  | setStoreLowMark ch tag value => exact (set_readsBack ch tag value).2.2.2.2.2
  | queryStatus ch tag => exact (query_readsBack ch tag 0).1
  | queryChannel ch tag channel => exact (query_readsBack ch tag channel).2.1
  | queryEntry ch tag key => exact (query_readsBack ch tag key).2.2.1
  | queryPage ch tag pageId => exact (query_readsBack ch tag pageId).2.2.2.1
  | queryJob ch tag jobId => exact (query_readsBack ch tag jobId).2.2.2.2.1
  | queryTemplate ch tag number => exact (query_readsBack ch tag number).2.2.2.2.2
  | flagsClearOverflow ch tag target => exact (flagsClear_readsBack ch tag target).1
  | flagsClearFraming ch tag target => exact (flagsClear_readsBack ch tag target).2.1
  | flagsClearStoreLowSeen ch tag => exact (flagsClear_readsBack ch tag 0).2.2
  | noticeFlush ch tag => exact noticeFlush_readsBack ..
  | channelReset ch tag target => exact channelReset_readsBack ..
  | clear ch tag => exact clear_readsBack ..
  | _ => exact ⟨by rintro _ _ _ ⟨⟩⟩

/-! ## The slots of a TEMPLATE and the keys of a PAGE -/

/-- Blocks of one size stand one after the other. -/
theorem drop_flatMap {α : Type} (g : α → List Byte) {n : Nat} (hg : ∀ a, (g a).length = n) (l : List α) (i : Nat) {a : α}
    (h : l[i]? = some a) : ∃ more, (l.flatMap g).drop (n * i) = g a ++ more := by
  induction l generalizing i with
  | nil => cases h
  | cons x rest ih =>
    cases i with
    | zero =>
      cases h
      exact ⟨rest.flatMap g, by simp⟩
    | succ i =>
      obtain ⟨more, hm⟩ := ih i (by simpa using h)
      refine ⟨more, ?_⟩
      rw [List.flatMap_cons, Nat.mul_succ, Nat.add_comm, ← List.drop_drop, List.drop_left' (hg x), hm]

theorem field_drop (b : List Byte) (d o w : Nat) : field b (d + o) w = field (b.drop d) o w := by
  simp [field, List.drop_drop]

theorem rgbAt_drop (b : List Byte) (d o : Nat) : rgbAt b (d + o) = rgbAt (b.drop d) o := by
  simp [rgbAt, byteAt, Nat.add_assoc]

theorem slotEntry_reads {f : SlotFields} (h : f.wf = true) (more : List Byte) :
    field (slotEntryBytes f ++ more) 0 1 = f.kind ∧ field (slotEntryBytes f ++ more) 1 1 = f.cell ∧
    field (slotEntryBytes f ++ more) 2 1 = f.paired ∧ field (slotEntryBytes f ++ more) 3 1 = f.font ∧
    field (slotEntryBytes f ++ more) 4 1 = f.align ∧ rgbAt (slotEntryBytes f ++ more) 5 = f.colour ∧
    field (slotEntryBytes f ++ more) 8 2 = f.x ∧ field (slotEntryBytes f ++ more) 10 2 = f.y ∧
    field (slotEntryBytes f ++ more) 12 2 = f.w ∧ field (slotEntryBytes f ++ more) 14 2 = f.h := by
  simp only [SlotFields.wf, fitsBytes, Bool.and_eq_true, decide_eq_true_eq, Nat.reducePow] at h
  have hc : rgbAt (slotEntryBytes f ++ more) 5 = f.colour := by
    simp [slotEntryBytes, rgbBytes, rgbAt, byteAt, beBytes_one]
  simp only [hc, true_and]
  simp [slotEntryBytes, rgbBytes_eq, field_after, field_beBytes_append, h]

theorem slotAt_of_drop {b more : List Byte} {i : Nat} {f : SlotFields} (h : f.wf = true)
    (hd : b.drop (32 + 20 * i) = slotEntryBytes f ++ more) : slotAt b i = f := by
  obtain ⟨hkind, hcell, hpaired, hfont, halign, hcolour, hx, hy, hw, hh⟩ := slotEntry_reads h more
  have h0 := field_drop b (32 + 20 * i) 0 1
  rw [Nat.add_zero] at h0
  simp only [slotAt, h0, field_drop, rgbAt_drop, hd, hkind, hcell, hpaired, hfont, halign, hcolour, hx, hy, hw, hh]

theorem template_slots (ch : Chan) (tag number width height bandHeight : Nat) (background placeholder ink : Rgb)
    (slots : List SlotFields)
    (hw : (Instr.template ch tag number width height bandHeight background placeholder ink slots).wf = true) (i : Nat)
    (f : SlotFields) (hf : slots[i]? = some f) :
    slotAt (templateRecord tag number width height bandHeight background placeholder ink slots) i = f := by
  obtain ⟨_, ⟨⟩, form⟩ := (template_readsBack ch tag number width height bandHeight background placeholder ink slots).reads
    hw _ _ rfl
  obtain ⟨more, hm⟩ := drop_flatMap slotEntryBytes Sys2Proof.Laws.slotEntryBytes_length slots i hf
  have wf : f.wf = true := by
    simp only [Instr.wf, Bool.and_eq_true] at hw
    exact List.all_eq_true.1 hw.1.2 f (List.mem_of_getElem? hf)
  refine slotAt_of_drop (more := more) wf ?_
  rw [← List.drop_drop, form.rest, hm]

theorem page_keys (ch : Chan) (tag pageId hold jobId number attempts : Nat) (title : List Byte) (keys : List Nat)
    (hw : (Instr.page ch tag pageId hold jobId number attempts title keys).wf = true) :
    pageKeys (pageRecord tag pageId hold jobId number attempts title keys) = keys := by
  obtain ⟨_, ⟨⟩, form⟩ := (page_readsBack ch tag pageId hold jobId number attempts title keys).reads hw _ _ rfl
  have ht : field (pageRecord tag pageId hold jobId number attempts title keys) 15 1 = title.length :=
    form.fields (15, 1, title.length) (by simp)
  have hk : field (pageRecord tag pageId hold jobId number attempts title keys) 16 1 = keys.length :=
    form.fields (16, 1, keys.length) (by simp)
  have fits : ∀ k ∈ keys, k < 4294967296 := by
    simp only [Instr.wf, Bool.and_eq_true] at hw
    intro k hm
    simpa [fitsBytes] using List.all_eq_true.1 hw.2 k hm
  unfold pageKeys
  rw [hk, ht]
  refine List.ext_getElem (by simp) fun i h1 h2 => ?_
  obtain ⟨more, hm⟩ := drop_flatMap (beBytes 4) (beBytes_length 4) keys i (List.getElem?_eq_getElem h2)
  have hd : (pageRecord tag pageId hold jobId number attempts title keys).drop (20 + title.length + 4 * i) =
      beBytes 4 keys[i] ++ more := by
    rw [← List.drop_drop, ← List.drop_drop, form.rest, List.drop_left, hm]
  have h0 := field_drop (pageRecord tag pageId hold jobId number attempts title keys) (20 + title.length + 4 * i) 0 4
  rw [Nat.add_zero] at h0
  rw [List.getElem_map, List.getElem_range, h0, hd, field_beBytes_append _ (fits _ (List.getElem_mem h2))]

/-! ## The header and the decoder's checks -/

open Sys2Proof.Laws in
/-- The record of every well-formed command is whole and passes the checks that its kind has (R6, R8). -/
theorem wireForm (c : Instr) : WireForm.Statement c := by
  cases c with
  | unknownKind ch kind tag body => exact WireForm.unknownKind _ _ _ _
  | jobOpen ch tag jobId target base limit => exact WireForm.jobOpen _ _ _ _ _ _
  | jobClose ch tag jobId => exact WireForm.jobClose _ _ _
  | roster ch tag key publication name => exact WireForm.roster _ _ _ _ _
  | portraitHead ch tag key version w h fx fy fw fh g => exact WireForm.portraitHead _ _ _ _ _ _ _ _ _ _ _
  | portraitStrip ch tag key index lines pixels => exact WireForm.portraitStrip _ _ _ _ _ _
  | portraitEnd ch tag key total => exact WireForm.portraitEnd _ _ _ _
  | template ch tag n w h bh bg ph ink slots => exact WireForm.template _ _ _ _ _ _ _ _ _ _
  | font ch tag number height tracking blank => exact WireForm.font _ _ _ _ _ _
  | glyph ch tag number code advance bitmap => exact WireForm.glyph _ _ _ _ _ _
  | page ch tag id hold job n attempts title keys => exact WireForm.page _ _ _ _ _ _ _ _ _
  | pageCancel ch tag pageId => exact WireForm.pageCancel _ _ _
  | setReadyWatermark ch tag target value => exact WireForm.setReadyWatermark _ _ _ _
  | setStallLimit ch tag value => exact WireForm.setStallLimit _ _ _
  | setGlobalTarget ch tag value => exact WireForm.setGlobalTarget _ _ _
  | setLead ch tag value => exact WireForm.setLead _ _ _
  | setInterval ch tag cls value => exact WireForm.setInterval _ _ _ _
  | setStoreLowMark ch tag value => exact WireForm.setStoreLowMark _ _ _
  | queryStatus ch tag => exact WireForm.queryStatus _ _
  | queryChannel ch tag channel => exact WireForm.queryChannel _ _ _
  | queryEntry ch tag key => exact WireForm.queryEntry _ _ _
  | queryPage ch tag pageId => exact WireForm.queryPage _ _ _
  | queryJob ch tag jobId => exact WireForm.queryJob _ _ _
  | queryTemplate ch tag number => exact WireForm.queryTemplate _ _ _
  | flagsClearOverflow ch tag target => exact WireForm.flagsClearOverflow _ _ _
  | flagsClearFraming ch tag target => exact WireForm.flagsClearFraming _ _ _
  | flagsClearStoreLowSeen ch tag => exact WireForm.flagsClearStoreLowSeen _ _
  | noticeFlush ch tag => exact WireForm.noticeFlush _ _
  | channelReset ch tag target => exact WireForm.channelReset _ _ _
  | clear ch tag => exact WireForm.clear _ _
  | _ => rintro _ _ _ ⟨⟩

/-- The record of a command is a header with flags of 0 and a body (11.2). -/
theorem wireRecord_shape {c : Instr} {ch : Chan} {b : List Byte} (h : c.wireRecord = some (ch, b)) :
    ∃ kind tag body, b = recordBytes kind tag body := by
  cases c
  all_goals
    cases h
  all_goals exact ⟨_, _, _, rfl⟩

theorem ofCode_some {n : Nat} {kind : RecordKind} (h : RecordKind.ofCode n = some kind) : n = kind.code := by
  unfold RecordKind.ofCode at h
  split at h
  all_goals
    cases h
  all_goals rfl

/-- The kind that the checks answer is that of the kind code, and the record has its fixed part (R8). -/
theorem decoderCheck_ok {b : List Byte} {kind : RecordKind} (h : decoderCheck b = .ok kind) :
    recKind b = some kind ∧ recKindCode b = kind.code ∧ kind.fixedPart ≤ b.length := by
  unfold decoderCheck at h
  split at h
  · cases h
  · rename_i k hk
    split at h
    · cases h
    · rename_i hc
      cases h
      refine ⟨hk, ofCode_some hk, ?_⟩
      simp only [ne_eq, Bool.or_eq_true, decide_eq_true_eq, not_or, Nat.not_lt] at hc
      exact hc.2

open Sys2Proof.Laws in
/-- A record command without a known kind is UNKNOWN_KIND. -/
theorem carriedKind_none {c : Instr} {ch : Chan} {b : List Byte} (hb : c.wireRecord = some (ch, b))
    (h : carriedKind c = none) : ∃ kind tag body, c = .unknownKind ch kind tag body := by
  cases c
  case unknownKind ch' kind tag body => cases hb; exact ⟨kind, tag, body, rfl⟩
  all_goals simp [carriedKind, Instr.wireRecord] at h hb

/-- Settles O49. -/
theorem wireReadsBack : Obligations.WireReadsBack := by
  refine ⟨linkFrame_readsBack, fun id hi => ?_, fun c ch b hw hb => ?_, template_slots, page_keys, fun c ch b hw hb => ?_⟩
  · obtain ⟨h17, h18, h19, h20, h21⟩ := press_readsBack hi
    exact ⟨h17, h18, h19, h20, h21, fun type ht => badMessage_readsBack hi ht⟩
  · obtain ⟨form, hform, reads⟩ := (readsBack c).reads hw ch b hb
    exact ⟨form, hform, reads.kind, reads.tag, reads.fields, reads.rest⟩
  · obtain ⟨whole, hcheck⟩ := wireRecord_checked (wireForm c) hw hb
    obtain ⟨kind, tag, body, rfl⟩ := wireRecord_shape hb
    refine ⟨whole.low, whole.high, whole.counts, recFlags_recordBytes kind tag body, ?_⟩
    unfold Sys2Proof.Laws.checked at hcheck
    cases hk : Sys2Proof.Laws.carriedKind c with
    | some k =>
      rw [hk] at hcheck
      obtain ⟨-, hcode, hfixed⟩ := decoderCheck_ok hcheck
      exact .inr ⟨k, hcheck, hcode, hfixed⟩
    | none =>
      rw [hk] at hcheck
      obtain ⟨kind', tag', body', rfl⟩ := carriedKind_none hb hk
      obtain ⟨_, ⟨⟩, reads⟩ := (readsBack (.unknownKind ch kind' tag' body')).reads hw ch _ hb
      exact .inl ⟨kind', body', by rw [reads.tag], reads.kind, hcheck⟩

end Sys2Proof.Machine
end

section
/-! PROOF. Record commands on a quiet channel: UNKNOWN_KIND, JOB_OPEN, and what a skip does with a record (R8, R11, R22). -/

namespace Sys2Proof.Machine

/-! ## A record command comes to the delivery of its record -/

theorem exec_wireRecord {c : Instr} {ch : Chan} {b : List Byte} {s : State} (hup : s.inReset = false)
    (hb : c.wireRecord = some (ch, b)) : exec c s = .next (deliver ch b s.cleared) := by
  cases c
  all_goals cases hb
  all_goals exact congrArg Host.Outcome.next (whenUp_up hup (deliver _ _))

theorem rested_self {s : State} (h : s.wake = false) : s.rested = s := by
  unfold State.rested
  rw [← h]

/-- What the decoder and its owner read of the record of a well-formed command (R6, R8, 11.2, 11.3). -/
structure CarriedRecord (b : List Byte) (kind : RecordKind) (form : RecordForm) : Prop where
  whole : IsRecord b
  checked : decoderCheck b = .ok kind
  isKind : recKind b = some kind
  reads : form.Reads b

theorem carriedRecord {c : Instr} {ch : Chan} {b : List Byte} {kind : RecordKind} {form : RecordForm} (hw : c.wf = true)
    (hb : c.wireRecord = some (ch, b)) (hk : Sys2Proof.Laws.carriedKind c = some kind) (hf : recordForm c = some form) :
    CarriedRecord b kind form := by
  obtain ⟨whole, hcheck⟩ := wireRecord_checked (wireForm c) hw hb
  have hok : decoderCheck b = .ok kind := by rw [hcheck, Sys2Proof.Laws.checked, hk]
  obtain ⟨form', hform, reads⟩ := (readsBack c).reads hw ch b hb
  cases hf.symm.trans hform
  exact ⟨whole, hok, (decoderCheck_ok hok).1, reads⟩

/-! ## UNKNOWN_KIND (R8) -/

/-- Settles O8: the decoder's checks fail on the kind, and the refusal is all that comes about on a quiet channel. -/
theorem unknownKind : Obligations.UnknownKind := by
  intro ch kind tag body s hq hw
  have hb : (Instr.unknownKind ch kind tag body).wireRecord = some (ch, recordBytes kind tag body) := rfl
  obtain ⟨whole, hcheck⟩ := wireRecord_checked (wireForm _) hw hb
  obtain ⟨_, ⟨⟩, reads⟩ := (readsBack _).reads hw ch _ hb
  have hnone : recKind (recordBytes kind tag body) = none := by
    have hc : intakeKindCodes.contains kind = false := by
      simp only [Instr.wf, Bool.and_eq_true, Bool.not_eq_true'] at hw
      exact hw.1.1.2
    rw [recKind, reads.kind]
    exact Sys2Proof.Laws.ofCode_unknown hc
  have hsub : recSubject (recordBytes kind tag body) = 0 := by rw [recSubject, hnone]
  have hn : ∀ key, (s.cleared.holding ch (recordBytes kind tag body)).chans[ch].binding ≠ .skipping key := by
    intro key
    rw [holding_self]
    exact hq.noSkip key
  have hh : recKind (recordBytes kind tag body) ≠ some .portraitHead := by rw [hnone]; exact nofun
  rw [exec_wireRecord hq.up hb, deliver_refused (quiet_cleared hq) whole hh (presentRecord_error hn hcheck hh),
    refusedOn_rested (quiet_cleared hq), reads.tag, reads.kind, hsub]

/-! ## JOB_OPEN (R22) -/

theorem judgeJobOpen_of_fields {ch : Chan} {b : List Byte} {s : State} {id target base limit : Nat} (hid : field b 8 1 = id)
    (ht : field b 9 1 = target) (hb : field b 12 4 = base) (hl : field b 16 4 = limit) (hw : s.waiting = []) :
    judgeJobOpen ch b s =
      if id = 0 ∨ base = 0 ∨ limit < base then .refused .badField []
      else if (s.job? id).isSome then .refused .duplicateJob []
      else if s.jobs.any (fun j => decide (j.base ≤ limit) && decide (base ≤ j.limit)) then .refused .windowOverlap []
      else if 8 ≤ s.jobs.length then .deferred .jobSlot
      else .taken { s with
        jobs := s.jobs ++ [{ id := id, base := base, limit := limit
                             target := if target = 0 then 0 else max 32 (min target 224)
                             state := .opened, livePages := 0 }] } := by
  subst hid ht hb hl
  have hf : ∀ p q r : Prop, ∀ [Decidable p] [Decidable q] [Decidable r],
      ((decide p || decide q || decide r) = true) = (p ∨ q ∨ r) := by
    intro p q r _ _ _
    simp [or_assoc]
  simp only [judgeJobOpen, hf, olderWaiter_none hw, Bool.or_false, decide_eq_true_eq]
  rfl

/-- Settles O10: the owner's verdict on the fields, one branch after the other. -/
theorem jobOpen : Obligations.JobOpen := by
  intro ch tag jobId target base limit s hq hw
  have hb : (Instr.jobOpen ch tag jobId target base limit).wireRecord =
      some (ch, jobOpenRecord tag jobId target base limit) := rfl
  have r := carriedRecord hw hb rfl rfl
  rw [exec_wireRecord hq.up hb]
  generalize jobOpenRecord tag jobId target base limit = b at r ⊢
  have hq' := quiet_cleared hq
  have htag : recTag b = tag := r.reads.tag
  have hcode : recKindCode b = 1 := r.reads.kind
  have hid : field b 8 1 = jobId := r.reads.fields (8, 1, jobId) (by simp)
  have hsub : recSubject b = jobId := by
    have hl : 9 ≤ b.length := Nat.le_trans (by decide) (decoderCheck_ok r.checked).2.2
    simp only [recSubject, r.isKind, if_pos hl, hid]
  have hj : judgeOwner ch .jobOpen b (s.cleared.holding ch b) = _ :=
    judgeJobOpen_of_fields hid (r.reads.fields (9, 1, target) (by simp)) (r.reads.fields (12, 4, base) (by simp))
      (r.reads.fields (16, 4, limit) (by simp)) hq.noWaiters
  have refused : ∀ reason, judgeOwner ch .jobOpen b (s.cleared.holding ch b) = .refused reason [] →
      deliver ch b s.cleared = (s.cleared.refusedOn ch tag jobId 1 reason []).rested := by
    intro reason h
    rw [owner_refused hq' r.whole r.checked rfl r.isKind h, htag, hcode, hsub]
  congr 1
  split
  · rename_i h; exact refused _ (by rw [hj, if_pos h])
  · rename_i h1
    rw [if_neg h1] at hj
    split
    · rename_i h; exact refused _ (by rw [hj]; exact if_pos h)
    · rename_i h2
      have hj := hj.trans (if_neg h2)
      split
      · rename_i h; exact refused _ (by rw [hj]; exact if_pos h)
      · rename_i h3
        have hj := hj.trans (if_neg h3)
        split
        · rename_i h
          exact owner_deferred hq' r.whole r.checked rfl (hj.trans (if_pos h))
        · rename_i h4
          let u : State := { s.cleared with
            jobs := s.jobs ++ [{ id := jobId, base := base, limit := limit
                                 target := if target = 0 then 0 else max 32 (min target 224)
                                 state := .opened, livePages := 0 }] }
          have ht := owner_taken (u := u) hq' r.whole r.checked rfl (hj.trans (if_neg h4)) rfl rfl
          rw [ht, counted_rested (u := u) _ hq' rfl rfl rfl rfl rfl rfl]
          exact rested_self hq.noWake

end Sys2Proof.Machine
end

section
/-! PROOF. A record on a listening channel, presented in any event; what a skip does with it (R6, R11). -/

namespace Sys2Proof.Machine

/-! ## The presentation of a whole record, whatever follows it -/

/-- A whole record in the buffer of a listening channel is what the part has to do, and nothing else is. -/
theorem holding_tasks {ch : Chan} {s : State} (hq : Listening ch s) {b : List Byte} (h : IsRecord b) :
    (s.holding ch b).tasks = [.dispatch ch] ∧ dispatchFront ch (s.holding ch b) = presentRecord ch b (s.holding ch b) := by
  have hself : (s.holding ch b).chans[ch] = { s.chans[ch] with buffer := b } := holding_self ch b s
  have hfront : (s.holding ch b).chans[ch].frontLength = some b.length := by
    rw [hself, ← h.counts]
    exact if_pos (Nat.le_trans (by decide) h.low)
  have hstall : (s.holding ch b).stalled ch = false := by
    rw [State.stalled, State.waitOf, holding_waiting, hq.noWaiters]; rfl
  have hpresents : (s.holding ch b).presents = fun k => decide (k = ch) := by
    funext k
    by_cases hk : k = ch
    · subst hk
      have hmode : (s.holding k b).chans[k].mode = .active := by rw [hself]; exact hq.active
      have hbuf : (s.holding k b).chans[k].buffer.length = b.length := by rw [hself]
      simp only [State.presents, hfront, hstall, hmode, hbuf]
      simp
    · rw [holding_presents_other _ hq hk, decide_eq_false hk]
  constructor
  · have hone : ∀ c : Chan, (List.finRange 4).filter (fun k => decide (k = c)) = [c] := by decide
    rw [State.tasks, holding_waiting, hq.noWaiters, hpresents, hone]
    simp
  · have hb : (s.holding ch b).chans[ch].front = b := by
      rw [hself]
      show b.take (recLength b) = b
      rw [h.counts, List.take_length]
    rw [dispatchFront, hfront, hb]
    simp only [h.legal]
    rfl

/-- The state in which a record that has just arrived has been presented, and what that makes possible has come about. -/
def State.presented (ch : Chan) (b : List Byte) (s : State) : State :=
  settleFor ((s.holding ch b).buffered + 15) (pump (presentRecord ch b (s.holding ch b)))

theorem event_presents {ch : Chan} {s : State} (hq : Listening ch s) {a p : List Byte} (h : IsRecord (a ++ p)) :
    event (frameArrives ch false p) (s.holding ch a) = s.presented ch (a ++ p) := by
  have hj : judgeStore 0 (s.holding ch (a ++ p)) = s.holding ch (a ++ p) := judgeStore_judged 0 hq.judged
  have hp : pump (s.holding ch (a ++ p)) = s.holding ch (a ++ p) := pump_steady hq.steady
  obtain ⟨htasks, hdispatch⟩ := holding_tasks hq h
  rw [event, holding_frame hq h.high, follow, hj, hp, settle, settleFor, htasks]
  simp only [choose, runTask, hdispatch]
  rfl

theorem pieces_presents {ch : Chan} {s : State} (hq : Listening ch s) (n : Nat) (a c : List Byte) (hn : c.length ≤ n)
    (hc : c ≠ []) (h : IsRecord (a ++ c)) :
    (pieces n c).foldl (fun s p => event (frameArrives ch false p) s) (s.holding ch a) = s.presented ch (a ++ c) := by
  induction n generalizing a c with
  | zero => exact absurd (List.length_eq_zero_iff.mp (Nat.le_zero.mp hn)) hc
  | succ n ih =>
    have hpieces : pieces (n + 1) c = c.take Config.maxPayload :: pieces n (c.drop Config.maxPayload) := by
      cases c with
      | nil => exact absurd rfl hc
      | cons x xs => rfl
    have hsplit : a ++ c.take Config.maxPayload ++ c.drop Config.maxPayload = a ++ c := by
      rw [List.append_assoc, List.take_append_drop]
    rw [hpieces, List.foldl_cons]
    rw [← hsplit] at h ⊢
    by_cases hd : c.drop Config.maxPayload = []
    · have hnil : pieces n ([] : List Byte) = [] := by cases n <;> rfl
      rw [hd, List.append_nil] at h ⊢
      rw [hnil]
      exact event_presents hq h
    · rw [event_partial hq h hd]
      exact ih _ _ (by rw [List.length_drop]; simp only [Config.maxPayload]; omega) hd h

/-- A record that arrives on a listening channel is presented, and what it makes possible comes about (R6, R10, R14). -/
theorem deliver_presented {ch : Chan} {s : State} (hq : Listening ch s) {b : List Byte} (h : IsRecord b) :
    deliver ch b s = s.presented ch b := by
  have hb : b ≠ [] := fun e => by have := h.low; simp [e] at this
  have := pieces_presents hq b.length [] b (Nat.le_refl _) hb h
  rwa [holding_nil hq.empty] at this

/-! ## What a skip does (R11) -/

theorem skips_of {ch : Chan} {s : State} {key : Nat} (hs : s.chans[ch].binding = .skipping key) (b : List Byte) :
    s.skips ch b = carriesSkipKey b key := by
  rw [State.skips, hs]

/-- A record that the skip discards: what is done with it is the count and, at an END, the end of the skip. -/
theorem presentRecord_skipped {ch : Chan} {s : State} {key : Nat} {b : List Byte} {kind : RecordKind}
    (hs : s.chans[ch].binding = .skipping key) (hk : decoderCheck b = .ok kind) (hc : carriesSkipKey b key = true) :
    presentRecord ch b s = discardSkipped ch b s := by
  have hskip : s.skips ch b = true := (skips_of hs b).trans hc
  simp only [presentRecord, hk, hskip, if_true]

/-- What becomes of a channel whose front record a skip discards. -/
def Channel.skipped (b : List Byte) (c : Channel) : Channel :=
  if recKind b = some .portraitEnd then { c with discarded := bump c.discarded, binding := .unbound }
  else { c with discarded := bump c.discarded }

theorem discardSkipped_holding {ch : Chan} {s : State} (hq : Listening ch s) (b : List Byte) :
    discardSkipped ch b (s.holding ch b) = modChan ch (Channel.skipped b) s := by
  have hd := dropFront_whole (t := s) (f := fun c => { c with discarded := bump c.discarded }) (b := b) hq rfl
    fun c => ⟨rfl, rfl, rfl, fun _ => rfl⟩
  rw [discardSkipped, hd]
  by_cases he : recKind b = some .portraitEnd
  · rw [if_pos he, setBinding, modChan_modChan]
    exact modChan_congr (if_pos he).symm
  · rw [if_neg he]
    exact modChan_congr (if_neg he).symm

theorem skipped_buffer (b : List Byte) (c : Channel) : (c.skipped b).buffer = c.buffer := by
  unfold Channel.skipped
  split <;> rfl

/-- A record of the skipped key on a listening channel. -/
theorem deliver_skipped {ch : Chan} {s : State} (hq : Listening ch s) {key : Nat} {b : List Byte} {kind : RecordKind}
    (hw : IsRecord b) (hs : s.chans[ch].binding = .skipping key) (hk : decoderCheck b = .ok kind)
    (hc : carriesSkipKey b key = true) : deliver ch b s = modChan ch (Channel.skipped b) s := by
  have hbind : (s.holding ch b).chans[ch].binding = .skipping key := by rw [holding_self]; exact hs
  have hj : StoreJudged (modChan ch (Channel.skipped b) s) := hq.judged
  have hp : presentRecord ch b (s.holding ch b) = judgeStore (recTag b) (modChan ch (Channel.skipped b) s) := by
    rw [presentRecord_skipped hbind hk hc, discardSkipped_holding hq, judgeStore_judged _ hj]
  rw [deliver_concluded hq hw hp hq.noWaiters fun c => ?_, settled_rested _ hj hq.steady]
  · exact rested_self hq.noWake
  · by_cases hcc : c = ch
    · subst hcc
      apply short_presents
      rw [modChan_self, skipped_buffer, hq.empty]
      decide
    · rw [← hq.still c]
      have e : (modChan ch (Channel.skipped b) s).chans[c] = s.chans[c] := modChan_other _ s hcc
      exact presents_same (by rw [e]) (by rw [e]) rfl

theorem carriesSkipKey_of {b : List Byte} {kind : RecordKind} {key : Nat} (hk : decoderCheck b = .ok kind)
    (hkind : kind = .portraitStrip ∨ kind = .portraitEnd) (hkey : field b 8 4 = key) : carriesSkipKey b key = true := by
  obtain ⟨hr, -, hlen⟩ := decoderCheck_ok hk
  have h12 : 12 ≤ b.length := by
    obtain rfl | rfl := hkind <;> exact Nat.le_trans (by decide) hlen
  have : recKey? b = some key := by rw [recKey?, if_pos h12, hkey]
  rw [carriesSkipKey, hr, this]
  obtain rfl | rfl := hkind <;> simp

/-! ## A record that ends a skip (R11) -/

theorem listening_setBinding {ch : Chan} {s : State} (h : Listening ch s) (bd : Binding) :
    Listening ch (setBinding ch bd s) := by
  have self : (setBinding ch bd s).chans[ch] = { s.chans[ch] with binding := bd } := modChan_self _ _ s
  refine ⟨⟨h.up, h.noWaiters, h.noWake, fun c => ?_, h.judged, h.steady⟩, ?_, ?_, ?_, ?_⟩
  · rw [← h.still c]
    by_cases hc : c = ch
    · subst hc; exact presents_same (by rw [self]) (by rw [self]) rfl
    · have e : (setBinding ch bd s).chans[c] = s.chans[c] := modChan_other _ s hc
      exact presents_same (by rw [e]) (by rw [e]) rfl
  · rw [self]; exact h.active
  · rw [self]; exact h.empty
  · rw [self]; exact h.ready
  · rw [self]; exact h.mark

/-- A record that carries another key, or is of another kind, is presented as where nothing is skipped. -/
theorem presentRecord_endsSkip {ch : Chan} {s : State} {key : Nat} {b : List Byte}
    (hs : s.chans[ch].binding = .skipping key) (hc : carriesSkipKey b key = false) :
    presentRecord ch b s = presentRecord ch b (setBinding ch .unbound s) := by
  have self : (setBinding ch .unbound s).chans[ch].binding = .unbound := by rw [setBinding, modChan_self]
  have hend : endSkip ch b s = setBinding ch .unbound s := by
    rw [endSkip, hs]
    simp only [hc]
    rfl
  have hend' : endSkip ch b (setBinding ch .unbound s) = setBinding ch .unbound s := by rw [endSkip, self]
  have hskip : s.skips ch b = false := (skips_of hs b).trans hc
  have hskip' : (setBinding ch .unbound s).skips ch b = false := by rw [State.skips, self]
  simp only [presentRecord, hend, hend', hskip, hskip']
  cases decoderCheck b with
  | error reason => rfl
  | ok kind => rfl

theorem presented_endsSkip {ch : Chan} {s : State} {key : Nat} {b : List Byte}
    (hs : s.chans[ch].binding = .skipping key) (hc : carriesSkipKey b key = false) :
    s.presented ch b = (setBinding ch .unbound s).presented ch b := by
  have hcomm : (setBinding ch .unbound s).holding ch b = setBinding ch .unbound (s.holding ch b) := by
    rw [State.holding, setBinding, modChan_modChan, State.holding, setBinding, modChan_modChan]
  have hbuf : (setBinding ch .unbound (s.holding ch b)).buffered = (s.holding ch b).buffered := by
    rw [← hcomm]
    simp only [State.buffered, State.holding, setBinding, modChan, Vector.toList_set, List.map_set, List.set_set]
  have hbind : (s.holding ch b).chans[ch].binding = .skipping key := by rw [holding_self]; exact hs
  rw [State.presented, State.presented, hcomm, hbuf, presentRecord_endsSkip hbind hc]

/-- Settles O9: the discard of a STRIP, that of an END, and the presentation of any other record after the end of the skip. -/
theorem skipDiscards : Obligations.SkipDiscards := by
  refine ⟨fun ch tag key index lines pixels s hq hs hw => ?_, fun ch tag key total s hq hs hw => ?_,
    fun c ch b key s hq hs hw hb hc => ?_⟩
  · have hb : (Instr.portraitStrip ch tag key index lines pixels).wireRecord =
      some (ch, portraitStripRecord tag key index lines pixels) := rfl
    have r := carriedRecord hw hb rfl rfl
    have hk : field (portraitStripRecord tag key index lines pixels) 8 4 = key := r.reads.fields (8, 4, key) (by simp)
    have hkind : ¬ recKind (portraitStripRecord tag key index lines pixels) = some .portraitEnd := by
      rw [r.isKind]; decide
    rw [exec_wireRecord hq.up hb, deliver_skipped (listening_cleared hq) r.whole hs r.checked
      (carriesSkipKey_of r.checked (.inl rfl) hk)]
    exact congrArg Host.Outcome.next (modChan_congr (if_neg hkind))
  · have hb : (Instr.portraitEnd ch tag key total).wireRecord = some (ch, portraitEndRecord tag key total) := rfl
    have r := carriedRecord hw hb rfl rfl
    have hk : field (portraitEndRecord tag key total) 8 4 = key := r.reads.fields (8, 4, key) (by simp)
    rw [exec_wireRecord hq.up hb, deliver_skipped (listening_cleared hq) r.whole hs r.checked
      (carriesSkipKey_of r.checked (.inr rfl) hk)]
    exact congrArg Host.Outcome.next (modChan_congr (if_pos r.isKind))
  · have whole := (wireRecord_checked (wireForm c) hw hb).1
    have hq' := listening_cleared hq
    rw [exec_wireRecord hq.up hb, exec_wireRecord (s := setBinding ch .unbound s) hq.up hb, deliver_presented hq' whole,
      presented_endsSkip (s := s.cleared) hs hc]
    exact congrArg Host.Outcome.next (deliver_presented (listening_setBinding hq' .unbound) whole).symm

end Sys2Proof.Machine
end

section
/-! PROOF. What the rest of the part does does not see a channel's buffer and counters; CHANNEL_RESET (R4, R12). -/

namespace Sys2Proof.Machine

/-! ## Changes of a channel commute with what leaves that channel's intake -/

theorem modChan_comm {ch c : Chan} (hc : c ≠ ch) (f g : Channel → Channel) (s : State) :
    modChan ch f (modChan c g s) = modChan c g (modChan ch f s) := by
  have h1 : (modChan c g s).chans[ch] = s.chans[ch] := modChan_other g s hc.symm
  have h2 : (modChan ch f s).chans[c] = s.chans[c] := modChan_other f s hc
  have hv : c.val ≠ ch.val := fun e => hc (Fin.ext e)
  unfold modChan at h1 h2 ⊢
  rw [h1, h2]
  dsimp only
  congr 1
  exact Vector.set_comm _ _ hv

theorem judgeStore_modChan (tag : Nat) (ch : Chan) (f : Channel → Channel) (s : State) :
    judgeStore tag (modChan ch f s) = modChan ch f (judgeStore tag s) := by
  have hfree : (modChan ch f s).freeCount = s.freeCount := rfl
  unfold judgeStore
  rw [hfree, modChan_storeLow, modChan_lowMark]
  split
  · split
    · exact notify_modChan _ _ _ _ ch f { s with storeLow := false }
    · rfl
  · split
    · exact notify_modChan _ _ _ _ ch f { s with storeLow := true, lowSeen := true }
    · rfl

theorem failPortrait_modChan (key : Nat) (reason : FailReason) (tag : Nat) (extra : List Item) (ch : Chan)
    (f : Channel → Channel) (s : State) :
    failPortrait key reason tag extra (modChan ch f s) = modChan ch f (failPortrait key reason tag extra s) := by
  cases hv : s.fillingVersion key with
  | none =>
    rw [failPortrait_none _ _ _ hv]
    exact failPortrait_none _ _ _ hv
  | some v =>
    have hv' := hv
    unfold State.fillingVersion at hv'
    cases he : s.entry? key with
    | none => rw [he] at hv'; cases hv'
    | some e =>
      rw [he] at hv'
      rw [failPortrait_filling (s := s) _ _ _ he hv', failPortrait_filling (s := modChan ch f s) _ _ _ he hv']
      exact notify_modChan _ _ _ _ ch f { s with
        entries := replaceFirst (fun x => x.key = key) { e with incoming := none } s.entries
        freeBlocks := joinRuns s.freeBlocks v.blocks, wake := true }

/-- The indications that a READY frame carries are not changed by a change of a channel that keeps its indication. -/
theorem sendReady_modChan {ch : Chan} {f : Channel → Channel} (mark : Bool) {s : State}
    (hf : (f s.chans[ch]).ready = s.chans[ch].ready) :
    sendReady mark (modChan ch f s) = modChan ch f (sendReady mark s) := by
  have ready : ∀ c : Chan, (modChan ch f s).chans[c].ready = s.chans[c].ready := by
    intro c
    by_cases hc : c = ch
    · subst hc; rw [modChan_self, hf]
    · rw [modChan_other f s hc]
  have r0 : (modChan ch f s).chans[0].ready = s.chans[0].ready := ready 0
  have r1 : (modChan ch f s).chans[1].ready = s.chans[1].ready := ready 1
  have r2 : (modChan ch f s).chans[2].ready = s.chans[2].ready := ready 2
  have r3 : (modChan ch f s).chans[3].ready = s.chans[3].ready := ready 3
  rw [sendReady, r0, r1, r2, r3]
  rfl

theorem evalReady_modChan {ch c : Chan} {f : Channel → Channel} {s : State} (hc : c ≠ ch)
    (hf : (f s.chans[ch]).ready = s.chans[ch].ready) : evalReady c (modChan ch f s) = modChan ch f (evalReady c s) := by
  unfold evalReady
  rw [modChan_other f s hc]
  split
  · rfl
  · rw [← modChan_comm hc, sendReady_modChan]
    rw [modChan_other _ s hc.symm, hf]

/-- A record in a channel's buffer does not take part in the abandonment of a portrait. -/
theorem abandoned_holding (ch c : Chan) (b : List Byte) (tag : Nat) (s : State) :
    (s.holding ch b).abandoned c tag = (s.abandoned c tag).holding ch b := by
  have hb : (s.holding ch b).chans[c].binding = s.chans[c].binding := by
    by_cases hc : c = ch
    · subst hc; rw [holding_self]
    · rw [holding_other _ _ hc]
  unfold State.abandoned
  rw [hb]
  cases s.chans[c].binding with
  | unbound => rfl
  | skipping key => rfl
  | opened key n => exact failPortrait_modChan ..

/-! ## The disposal of a record on a listening channel -/

/-- A channel whose buffer is empty with its ready indication asserted. -/
structure Vacant (ch : Chan) (s : State) : Prop where
  empty : s.chans[ch].buffer = []
  ready : s.chans[ch].ready = true
  mark : s.chans[ch].watermark ≤ Config.watermarkMax

theorem Listening.vacant {ch : Chan} {s : State} (h : Listening ch s) : Vacant ch s := ⟨h.empty, h.ready, h.mark⟩

theorem Vacant.same {ch : Chan} {s t : State} (h : Vacant ch s) (e : t.chans[ch] = s.chans[ch]) : Vacant ch t :=
  ⟨e ▸ h.empty, e ▸ h.ready, e ▸ h.mark⟩

theorem Vacant.level {ch : Chan} {s : State} (h : Vacant ch s) : s.chans[ch].readyLevel = true := by
  rw [Channel.readyLevel, Channel.space, h.empty, decide_eq_true_eq]
  exact Nat.le_trans h.mark (by decide)

/-- A change of a channel that leaves its buffer, its indication and its watermark, and does not read the buffer. -/
structure KeepsIntake (f : Channel → Channel) : Prop where
  buffer : ∀ c, (f c).buffer = c.buffer
  ready : ∀ c, (f c).ready = c.ready
  watermark : ∀ c, (f c).watermark = c.watermark
  blind : ∀ c l, f { c with buffer := l } = { f c with buffer := l }

theorem Vacant.modChan {ch : Chan} {s : State} (h : Vacant ch s) {f : Channel → Channel} (hf : KeepsIntake f) :
    Vacant ch (modChan ch f s) := by
  constructor <;> rw [modChan_self]
  · rw [hf.buffer, h.empty]
  · rw [hf.ready, h.ready]
  · rw [hf.watermark]; exact h.mark

/-- The record leaves the buffer that holds no more than it. -/
theorem dropFront_vacant {ch : Chan} {t : State} {a : List Byte} {n : Nat} {f : Channel → Channel} (hf : KeepsIntake f)
    (ht : Vacant ch t) (hn : a.length ≤ n) : dropFront ch n (modChan ch f (t.holding ch a)) = modChan ch f t := by
  have hdrop : modChan ch (fun c => { c with buffer := c.buffer.drop n }) (modChan ch f (t.holding ch a)) =
      modChan ch f t := by
    rw [State.holding, modChan_modChan, modChan_modChan]
    apply modChan_congr
    rw [hf.blind, List.drop_eq_nil_of_le hn, ← ht.empty, ← hf.buffer t.chans[ch]]
  have hv := ht.modChan hf
  rw [dropFront, hdrop]
  exact evalReady_same (hv.ready.trans hv.level.symm)

theorem steady_judgeStore (tag : Nat) {s : State} (h : Steady s) : Steady (judgeStore tag s) :=
  steady_of h (judgeStore_pages ..) (judgeStore_compositor ..) (judgeStore_offer ..)

/-- A record on a listening channel whose disposal leaves a steady state in which nothing waits and no other channel presents a
record: the store low state is judged, and nothing more comes about (R9, R55). -/
theorem deliver_disposed {ch : Chan} {s t : State} (hq : Listening ch s) {b : List Byte} (h : IsRecord b)
    (hp : presentRecord ch b (s.holding ch b) = judgeStore (recTag b) t) (hv : Vacant ch t) (hw : t.waiting = [])
    (ho : ∀ c, c ≠ ch → t.presents c = false) (hs : Steady t) :
    deliver ch b s = (judgeStore (recTag b) t).rested := by
  rw [deliver_concluded hq h hp hw fun c => ?_, State.settled, pump_steady (steady_judgeStore _ hs)]
  by_cases hc : c = ch
  · subst hc
    exact short_presents (by rw [hv.empty]; decide)
  · exact ho c hc

theorem keepsIntake_taken : KeepsIntake fun c => { c with taken := bump c.taken } :=
  ⟨fun _ => rfl, fun _ => rfl, fun _ => rfl, fun _ _ => rfl⟩

/-- A record that is taken with the state `t` as its effect; `a` is what the effect leaves in the record's buffer. -/
theorem deliver_takenOn {ch : Chan} {s t x : State} (hq : Listening ch s) {b a : List Byte} (h : IsRecord b)
    (hp : presentRecord ch b (s.holding ch b) = conclude ch b (.taken (t.holding ch a)) x) (ha : a.length ≤ b.length)
    (hv : Vacant ch t) (hw : t.waiting = []) (ho : ∀ c, c ≠ ch → t.presents c = false) (hs : Steady t) :
    deliver ch b s = (judgeStore (recTag b) (t.counted ch)).rested := by
  have hunwait : unwait ch (t.holding ch a) = t.holding ch a := unwait_none hw
  refine deliver_disposed hq h ?_ (hv.modChan keepsIntake_taken) hw (fun c hc => ?_) hs
  · rw [hp, conclude]
    simp only [hunwait, dropFront_vacant keepsIntake_taken hv ha]
    rfl
  · rw [← ho c hc]
    have e : (t.counted ch).chans[c] = t.chans[c] := modChan_other _ t hc
    exact presents_same (by rw [e]) (by rw [e]) rfl

/-- A record of a kind that breaks no portrait, taken by its owner, whatever its effect on the channels. -/
theorem deliver_takenFrom {ch : Chan} {s t : State} (hq : Quiet ch s) {b a : List Byte} (h : IsRecord b) {kind : RecordKind}
    (hk : decoderCheck b = .ok kind) (hplain : kind.plain = true)
    (hj : judgeOwner ch kind b (s.holding ch b) = .taken (t.holding ch a)) (ha : a.length ≤ b.length) (hv : Vacant ch t)
    (hw : t.waiting = []) (ho : ∀ c, c ≠ ch → t.presents c = false) (hs : Steady t) :
    deliver ch b s = (judgeStore (recTag b) (t.counted ch)).rested := by
  have hn : ∀ key, (s.holding ch b).chans[ch].binding ≠ .skipping key := by
    intro key; rw [holding_self]; exact hq.noSkip key
  exact deliver_takenOn hq.toListening h (by rw [presentRecord_ok hn hk, breakOpen_plain hplain, hj]) ha hv hw ho hs

/-! ## Entering RESYNC where no record waits -/

theorem loseStream_free {s : State} (hw : s.waiting = []) (ch : Chan) (tag : Nat) :
    loseStream ch tag s = evalReady ch (modChan ch (Channel.emptied tag) (s.abandoned ch tag)) := by
  have h : s.waitOf ch = none := by rw [State.waitOf, hw]; rfl
  rw [loseStream_eq, h]

/-- The record in the buffer of the channel that loses its stream is lost. -/
theorem enterResync_holding_self {ch : Chan} {s : State} (hw : s.waiting = []) (ha : s.chans[ch].mode = .active)
    (b : List Byte) (tag : Nat) : enterResync ch tag (s.holding ch b) = enterResync ch tag s := by
  have ha' : (s.holding ch b).chans[ch].mode = .active := by rw [holding_self]; exact ha
  rw [enterResync_active tag ha, enterResync_active tag ha', loseStream_free hw, loseStream_free (s := s.holding ch b) hw,
    abandoned_holding, State.holding, modChan_modChan]
  rfl

theorem enterResync_holding_other {ch c : Chan} (hc : c ≠ ch) {s : State} (hw : s.waiting = []) (b : List Byte) (tag : Nat) :
    enterResync c tag (s.holding ch b) = (enterResync c tag s).holding ch b := by
  have hm : (s.holding ch b).chans[c].mode = s.chans[c].mode := by rw [holding_other _ _ hc]
  cases h : s.chans[c].mode with
  | active =>
    rw [enterResync_active tag h, enterResync_active tag (hm.trans h), loseStream_free hw,
      loseStream_free (s := s.holding ch b) hw, abandoned_holding, State.holding, ← modChan_comm hc]
    exact evalReady_modChan hc rfl
  | resync =>
    rw [enterResync_resync tag h, enterResync_resync tag (hm.trans h)]
    exact (modChan_comm hc _ _ s).symm

theorem enterResync_mode {s : State} (hw : s.waiting = []) (ch : Chan) (tag : Nat) :
    (enterResync ch tag s).chans[ch].mode = .resync := by
  cases h : s.chans[ch].mode with
  | active => rw [enterResync_active tag h, loseStream_free hw, evalReady_self, modChan_self]; rfl
  | resync => rw [enterResync_resync tag h, modChan_self]; exact h

theorem enterResync_other {ch c : Chan} (hc : c ≠ ch) (tag : Nat) (s : State) :
    (enterResync ch tag s).chans[c] = s.chans[c] := by
  cases h : s.chans[ch].mode with
  | active => rw [enterResync_active tag h, loseStream_other tag s hc]
  | resync => rw [enterResync_resync tag h, modChan_other _ s hc]

theorem enterResync_noWaiters {s : State} (hw : s.waiting = []) (ch : Chan) (tag : Nat) :
    (enterResync ch tag s).waiting = [] := by
  cases h : s.chans[ch].mode with
  | active => rw [enterResync_active tag h, loseStream_waiting, hw]; rfl
  | resync => rw [enterResync_resync tag h]; exact hw

theorem steady_failPortrait (key : Nat) (reason : FailReason) (tag : Nat) (extra : List Item) {s : State} (h : Steady s) :
    Steady (failPortrait key reason tag extra s) := by
  unfold failPortrait
  split
  · exact h
  · split
    · exact h
    · exact steady_of h (notify_pages ..) (notify_compositor ..) (notify_offer ..)

theorem steady_abandoned (ch : Chan) (tag : Nat) {s : State} (h : Steady s) : Steady (s.abandoned ch tag) := by
  unfold State.abandoned
  split
  · exact steady_failPortrait _ _ _ _ h
  · exact h

theorem steady_enterResync {s : State} (hw : s.waiting = []) (h : Steady s) (ch : Chan) (tag : Nat) :
    Steady (enterResync ch tag s) := by
  cases hm : s.chans[ch].mode with
  | active =>
    rw [enterResync_active tag hm, loseStream_free hw]
    exact steady_of (steady_abandoned ch tag h) (evalReady_pages ..) (evalReady_compositor ..) (evalReady_offer ..)
  | resync => rw [enterResync_resync tag hm]; exact h

theorem presents_resync {s : State} {c : Chan} (h : s.chans[c].mode = .resync) : s.presents c = false := by
  have hm : decide (s.chans[c].mode = .active) = false := by rw [h]; rfl
  simp only [State.presents, hm, Bool.false_and]

theorem enterResync_presents {ch : Chan} {s : State} (hq : Listening ch s) (target : Chan) (tag : Nat) (c : Chan) :
    (enterResync target tag s).presents c = false := by
  by_cases hc : c = target
  · subst hc; exact presents_resync (enterResync_mode hq.noWaiters c tag)
  · rw [← hq.still c]
    have e := enterResync_other hc tag s
    exact presents_same (by rw [e]) (by rw [e]) ((enterResync_noWaiters hq.noWaiters target tag).trans hq.noWaiters.symm)

/-! ## CHANNEL_RESET (R4, R12) -/

theorem deliver_channelReset {ch : Chan} {s : State} (hq : Quiet ch s) {tag n : Nat} {b : List Byte}
    (r : CarriedRecord b .channelReset ⟨80, tag, [(8, 1, n)], 12, []⟩) (target : Chan) (hn : n = target.val) :
    deliver ch b s = (judgeStore tag ((enterResync target tag s).counted ch)).rested := by
  obtain rfl : recTag b = tag := r.reads.tag
  have hw := hq.noWaiters
  have hf : field b 8 1 = target.val := (r.reads.fields (8, 1, n) (by simp)).trans hn
  have hj : judgeOwner ch .channelReset b (s.holding ch b) = .taken (enterResync target (recTag b) (s.holding ch b)) := by
    show judgeChannelReset b _ = _
    unfold judgeChannelReset
    simp only [hf, target.isLt]
    rfl
  have deliver_of : ∀ a : List Byte, enterResync target (recTag b) (s.holding ch b) =
      (enterResync target (recTag b) s).holding ch a → a.length ≤ b.length → Vacant ch (enterResync target (recTag b) s) →
      deliver ch b s = (judgeStore (recTag b) ((enterResync target (recTag b) s).counted ch)).rested := by
    intro a ha hl hv
    exact deliver_takenFrom hq r.whole r.checked rfl (by rw [hj, ha]) hl hv (enterResync_noWaiters hw target _)
      (fun c _ => enterResync_presents hq.toListening target _ c) (steady_enterResync hw hq.steady target _)
  by_cases ht : target = ch
  · subst ht
    have hself := loseStream_self target (recTag b) s hq.mark
    rw [← enterResync_active _ hq.active] at hself
    have hv : Vacant target (enterResync target (recTag b) s) :=
      ⟨by rw [hself]; rfl, by rw [hself], by rw [hself]; exact hq.mark⟩
    exact deliver_of [] (by rw [enterResync_holding_self hw hq.active, holding_nil hv.empty]) (Nat.zero_le _) hv
  · have hv := hq.vacant.same (enterResync_other (Ne.symm ht) (recTag b) s)
    exact deliver_of b (enterResync_holding_other ht hw b _) (Nat.le_refl _) hv

/-- Settles O28: the refusal of a number that names no channel, and the RESYNC of the channel named. -/
theorem channelReset : Obligations.ChannelReset := by
  intro ch tag s hq ht
  have record : ∀ n, n < 256 → CarriedRecord (channelResetRecord tag n) .channelReset ⟨80, tag, [(8, 1, n)], 12, []⟩ ∧
      exec (.channelReset ch tag n) s = .next (deliver ch (channelResetRecord tag n) s.cleared) := by
    intro n hn
    have hw : (Instr.channelReset ch tag n).wf = true := by simpa [Instr.wf, fitsBytes, hn] using ht
    exact ⟨carriedRecord (c := .channelReset ch tag n) hw rfl rfl rfl, exec_wireRecord hq.up rfl⟩
  refine ⟨fun n h3 hn => ?_, fun target => ?_⟩
  · obtain ⟨r, he⟩ := record n hn
    have hf : field (channelResetRecord tag n) 8 1 = n := r.reads.fields (8, 1, n) (by simp)
    have hj : judgeOwner ch .channelReset (channelResetRecord tag n) (s.cleared.holding ch (channelResetRecord tag n)) =
        .refused .badField [] := by
      show judgeChannelReset _ _ = _
      unfold judgeChannelReset
      rw [hf]
      exact dif_neg (by omega)
    have hsub : recSubject (channelResetRecord tag n) = 0 := by rw [recSubject, r.isKind]
    rw [he, owner_refused (quiet_cleared hq) r.whole r.checked rfl r.isKind hj, r.reads.tag, r.reads.kind, hsub]
  · obtain ⟨r, he⟩ := record target.val (by omega)
    rw [he, deliver_channelReset (quiet_cleared hq) r target rfl]

end Sys2Proof.Machine
end

section
/-! PROOF. SET of one pair (R2, R16, R56, R66, R142, R167, R175, R176). -/

namespace Sys2Proof.Machine

/-! ## The evaluation of all ready indications (R2) -/

theorem foldl_evalReady_judged {s : State} (h : ReadyJudged s) (l : List Chan) :
    l.foldl (fun s ch => evalReady ch s) s = s := by
  induction l with
  | nil => rfl
  | cons c rest ih => rw [List.foldl_cons, evalReady_same (h c), ih]

/-- Where one channel alone may stand off its level, its evaluation is the whole of what the evaluation of all comes to. -/
theorem foldl_evalReady_one {s : State} (ch : Chan) (h : ∀ c, c ≠ ch → s.chans[c].ready = s.chans[c].readyLevel) (l : List Chan) :
    l.foldl (fun s ch => evalReady ch s) s = if ch ∈ l then evalReady ch s else s := by
  have judged : ReadyJudged (evalReady ch s) := by
    intro c
    by_cases hc : c = ch
    · subst hc; exact evalReady_readyAt c s
    · rw [evalReady_other s hc]; exact h c hc
  induction l with
  | nil => rfl
  | cons c rest ih =>
    rw [List.foldl_cons]
    by_cases hc : c = ch
    · subst hc
      rw [foldl_evalReady_judged judged, if_pos List.mem_cons_self]
    · rw [evalReady_same (h c hc), ih]
      simp only [List.mem_cons, Ne.symm hc, false_or]

theorem evalAll_one {s : State} (ch : Chan) (h : ∀ c, c ≠ ch → s.chans[c].ready = s.chans[c].readyLevel) :
    (List.finRange 4).foldl (fun s ch => evalReady ch s) s = evalReady ch s := by
  rw [foldl_evalReady_one ch h, if_pos (List.mem_finRange ch)]

/-! ## The effects of a change of settings where nothing waits and nothing can begin -/

theorem discardDue_none {s : State} (h : s.waiting = []) : discardDue s = s := by
  rw [discardDue, h]
  rfl

/-- What a change of settings comes to once the ready indications are evaluated. -/
theorem settingEffects_eq {old s u : State} {pairs : List (Nat × Nat)} {tag : Nat}
    (hu : (List.finRange 4).foldl (fun s ch => evalReady ch s) s = u) (hw : u.waiting = []) (hs : Steady u) :
    settingEffects old pairs tag s =
      if u.lowMark = old.lowMark then if pairs.any (fun p => 8 ≤ p.1 && p.1 ≤ 14) then releaseRule u else u
      else judgeStore tag (if pairs.any (fun p => 8 ≤ p.1 && p.1 ≤ 14) then releaseRule u else u) := by
  have hlow : (if pairs.any (fun p => 8 ≤ p.1 && p.1 ≤ 14) then releaseRule u else u).lowMark = u.lowMark := by
    split
    · exact releaseRule_lowMark u
    · rfl
  unfold settingEffects
  dsimp only
  rw [hu, discardDue_none hw, ite_self, pump_steady hs, ite_self, hlow]

theorem settingEffects_same {old s u : State} {pairs : List (Nat × Nat)} {tag : Nat}
    (hu : (List.finRange 4).foldl (fun s ch => evalReady ch s) s = u) (hw : u.waiting = []) (hs : Steady u)
    (hl : u.lowMark = old.lowMark) (hp : pairs.any (fun p => 8 ≤ p.1 && p.1 ≤ 14) = false) :
    settingEffects old pairs tag s = u := by
  rw [settingEffects_eq hu hw hs, if_pos hl, hp]
  rfl

/-- A judging of the store low state leaves it judged, where the mark is within the pool (R55, R175). -/
theorem storeJudged_judgeStore (tag : Nat) {s : State} (h : s.lowMark ≤ Config.blockCount) : StoreJudged (judgeStore tag s) := by
  have hrec : s.lowMark ≤ recoveryLevel s.lowMark := le_min (Nat.le_add_right _ _) h
  by_cases hlow : s.storeLow = true
  · by_cases hfree : recoveryLevel s.lowMark ≤ s.freeCount
    · rw [judgeStore, if_pos hlow, if_pos hfree]
      refine storeJudged_of (s := { s with storeLow := false }) ?_ (notify_freeBlocks ..) (notify_storeLow ..) (notify_lowMark ..)
      rw [StoreJudged, if_neg Bool.false_ne_true]
      exact Nat.le_trans hrec hfree
    · rw [judgeStore, if_pos hlow, if_neg hfree, StoreJudged, if_pos hlow]
      exact Nat.lt_of_not_le hfree
  · by_cases hfree : s.freeCount < s.lowMark
    · rw [judgeStore, if_neg hlow, if_pos hfree]
      refine storeJudged_of (s := { s with storeLow := true, lowSeen := true }) ?_ (notify_freeBlocks ..) (notify_storeLow ..)
        (notify_lowMark ..)
      rw [StoreJudged, if_pos rfl]
      exact Nat.lt_of_lt_of_le hfree hrec
    · rw [judgeStore, if_neg hlow, if_neg hfree, StoreJudged, if_neg hlow]
      exact Nat.le_of_not_lt hfree

/-! ## The SET of one pair -/

/-- What the record of a SET of one pair carries (11.2). -/
structure SetRecord (b : List Byte) (tag param value : Nat) : Prop where
  carried : CarriedRecord b .set ⟨64, tag, [(8, 1, 1), (12, 2, param), (16, 4, value)], 20, []⟩
  length : b.length = 20

theorem SetRecord.pairs {b : List Byte} {tag param value : Nat} (r : SetRecord b tag param value) :
    setPairs b = [(param, value)] := by
  have h1 : field b 8 1 = 1 := r.carried.reads.fields (8, 1, 1) (by simp)
  have h2 : field b 12 2 = param := r.carried.reads.fields (12, 2, param) (by simp)
  have h3 : field b 16 4 = value := r.carried.reads.fields (16, 4, value) (by simp)
  rw [setPairs, h1]
  show [(field b 12 2, field b 16 4)] = _
  rw [h2, h3]

theorem setRecord_length (tag param value : Nat) : (setRecord tag [(param, value)]).length = 20 := by
  simp [setRecord, recordBytes]

/-- A SET of one pair on a quiet channel: `u` is the state that its change leaves before the acknowledgement is stored. -/
theorem deliver_set {ch : Chan} {s u : State} (hq : Quiet ch s) {b : List Byte} {tag param value : Nat}
    (r : SetRecord b tag param value) (hparam : 1 ≤ param ∧ param ≤ 15)
    (heffects : settingEffects (s.holding ch b) [(param, value)] tag
      (applyParam param (appliedValue param value) (s.holding ch b)) = u.holding ch b)
    (hv : Vacant ch u) (hw : u.waiting = []) (ho : ∀ c, c ≠ ch → u.presents c = false) (hs : Steady u) (hj : StoreJudged u) :
    deliver ch b s = ((storeReply (setAck tag param value (appliedValue param value)) u).counted ch).rested := by
  have htag : recTag b = tag := r.carried.reads.tag
  have hcount : field b 8 1 = 1 := r.carried.reads.fields (8, 1, 1) (by simp)
  have hknown : paramKnown param = true := by simp [paramKnown, hparam]
  have hjudge : judgeOwner ch .set b (s.holding ch b) =
      .taken ((storeReply (setAck tag param value (appliedValue param value)) u).holding ch b) := by
    have htake : judgeSet b (s.holding ch b) = .taken (takeSet [(param, value)] tag (s.holding ch b)) := by
      simp [judgeSet, hcount, r.length, r.pairs, hknown, htag]
    have hstore : takeSet [(param, value)] tag (s.holding ch b) =
        storeReply (setAck tag param value (appliedValue param value)) (u.holding ch b) := congrArg _ heffects
    show judgeSet b (s.holding ch b) = _
    rw [htake, hstore, State.holding, storeReply_modChan]
    rfl
  have hc : (storeReply (setAck tag param value (appliedValue param value)) u).chans = u.chans := storeReply_chans ..
  have hwait := storeReply_waiting (setAck tag param value (appliedValue param value)) u
  rw [deliver_takenFrom hq r.carried.whole r.carried.checked rfl hjudge (Nat.le_refl _) (hv.same (by rw [hc]))
    (hwait.trans hw) (fun c hne => ?_) (steady_of hs (storeReply_pages ..) (storeReply_compositor ..) (storeReply_offer ..)),
    judgeStore_judged]
  · exact storeJudged_of hj (storeReply_freeBlocks ..) (storeReply_storeLow ..) (storeReply_lowMark ..)
  · rw [← ho c hne]
    exact presents_same (by rw [hc]) (by rw [hc]) hwait

theorem readyJudged_holding {ch : Chan} {s : State} (hq : Listening ch s) (hr : ReadyJudged s) {b : List Byte}
    (hb : b.length ≤ Config.maxRecord) : ReadyJudged (s.holding ch b) := by
  intro c
  by_cases hc : c = ch
  · subst hc
    rw [holding_self, holding_level hq hb]
    exact hq.ready
  · rw [holding_other b s hc]
    exact hr c

/-- A SET of one pair whose change leaves the channels: `t` is the state with the new setting. -/
theorem deliver_setting {ch : Chan} {s t u : State} (hq : Quiet ch s) (hr : ReadyJudged s) {b : List Byte} {tag param value : Nat}
    (r : SetRecord b tag param value) (hparam : 1 ≤ param ∧ param ≤ 15)
    (happly : applyParam param (appliedValue param value) (s.holding ch b) = t.holding ch b)
    (hc : t.chans = s.chans) (hw : t.waiting = s.waiting) (hs : Steady t)
    (heffects : (if t.lowMark = s.lowMark then
        if [(param, value)].any (fun p => 8 ≤ p.1 && p.1 ≤ 14) then releaseRule (t.holding ch b) else t.holding ch b
      else judgeStore tag
        (if [(param, value)].any (fun p => 8 ≤ p.1 && p.1 ≤ 14) then releaseRule (t.holding ch b) else t.holding ch b)) =
      u.holding ch b)
    (k : SameLink t u) (hsu : Steady u) (hj : StoreJudged u) :
    deliver ch b s = ((storeReply (setAck tag param value (appliedValue param value)) u).counted ch).rested := by
  have hchans : (t.holding ch b).chans = (s.holding ch b).chans := by
    simp only [State.holding, modChan_chans, hc]
  have hjudged : ReadyJudged (t.holding ch b) := by
    intro c
    rw [hchans]
    exact readyJudged_holding hq.toListening hr r.carried.whole.high c
  have hwait : (t.holding ch b).waiting = [] := hw.trans hq.noWaiters
  have huw : u.waiting = s.waiting := k.2.trans hw
  refine deliver_set hq r hparam ?_ (hq.vacant.same (by rw [k.1, hc])) (huw.trans hq.noWaiters) (fun c _ => ?_) hsu hj
  · rw [happly, settingEffects_eq (foldl_evalReady_judged hjudged _) hwait hs]
    exact heffects
  · rw [← hq.still c]
    exact presents_same (by rw [k.1, hc]) (by rw [k.1, hc]) huw

/-- A SET of one pair that changes a setting of no immediate effect. -/
theorem deliver_setPlain {ch : Chan} {s t : State} (hq : Quiet ch s) (hr : ReadyJudged s) {b : List Byte} {tag param value : Nat}
    (r : SetRecord b tag param value) (hparam : 1 ≤ param ∧ param < 8)
    (happly : applyParam param (appliedValue param value) (s.holding ch b) = t.holding ch b)
    (hc : t.chans = s.chans) (hw : t.waiting = s.waiting) (hs : Steady t) (hj : StoreJudged t) (hl : t.lowMark = s.lowMark) :
    deliver ch b s = ((storeReply (setAck tag param value (appliedValue param value)) t).counted ch).rested := by
  refine deliver_setting hq hr r ⟨hparam.1, by omega⟩ happly hc hw hs ?_ (.rfl' t) hs hj
  have h8 : ¬ 8 ≤ param := by omega
  rw [if_pos hl]
  simp [h8]

/-! ## A watermark (R2) -/

theorem evalReady_watermark_self {ch : Chan} {s : State} (hq : Listening ch s) {v : Nat} (hv : v ≤ Config.watermarkMax)
    {b : List Byte} (hb : b.length ≤ Config.maxRecord) :
    evalReady ch (setWatermark ch v (s.holding ch b)) = setWatermark ch v (s.holding ch b) := by
  apply evalReady_same
  rw [setWatermark, modChan_self, holding_self]
  have hlevel : v ≤ Config.bufferSize - b.length := by
    simp only [Config.watermarkMax, Config.maxRecord, Config.bufferSize] at *
    omega
  exact hq.ready.trans (decide_eq_true hlevel).symm

theorem setWatermark_holding (ch c : Chan) (v : Nat) (b : List Byte) (s : State) :
    setWatermark c v (s.holding ch b) = (setWatermark c v s).holding ch b := by
  by_cases hc : c = ch
  · subst hc
    rw [State.holding, setWatermark, modChan_modChan, State.holding, setWatermark, modChan_modChan]
  · exact (modChan_comm hc _ _ s).symm

/-- A new watermark and the level it gives its channel's indication, with a record in a channel's buffer or without. -/
theorem evalReady_watermark_holding {ch : Chan} {s : State} (hq : Listening ch s) (c : Chan) {v : Nat}
    (hv : v ≤ Config.watermarkMax) {b : List Byte} (hb : b.length ≤ Config.maxRecord) :
    evalReady c (setWatermark c v (s.holding ch b)) = (evalReady c (setWatermark c v s)).holding ch b := by
  by_cases hc : c = ch
  · subst hc
    have hnil : evalReady c (setWatermark c v s) = setWatermark c v s := by
      have := evalReady_watermark_self (b := []) hq hv (Nat.zero_le _)
      rwa [holding_nil hq.empty] at this
    rw [evalReady_watermark_self hq hv hb, hnil, setWatermark_holding]
  · rw [setWatermark_holding, State.holding]
    exact evalReady_modChan hc rfl

theorem applyParam_watermark (c : Chan) (value : Nat) (s : State) :
    applyParam (c.val + 1) (appliedValue (c.val + 1) value) s = setWatermark c (max 512 (min value 12288)) s ∧
      appliedValue (c.val + 1) value = max 512 (min value 12288) := by
  match c with
  | 0 => exact ⟨rfl, rfl⟩
  | 1 => exact ⟨rfl, rfl⟩
  | 2 => exact ⟨rfl, rfl⟩
  | 3 => exact ⟨rfl, rfl⟩

theorem deliver_setWatermark {ch : Chan} {s : State} (hq : Quiet ch s) (hr : ReadyJudged s) (c : Chan) {b : List Byte}
    {tag value : Nat} (r : SetRecord b tag (c.val + 1) value) :
    deliver ch b s = ((storeReply (setAck tag (c.val + 1) value (max 512 (min value 12288)))
      (evalReady c (setWatermark c (max 512 (min value 12288)) s))).counted ch).rested := by
  have hmax : max 512 (min value 12288) ≤ Config.watermarkMax := by simp only [Config.watermarkMax]; omega
  have hb := r.carried.whole.high
  obtain ⟨happly, happlied⟩ := applyParam_watermark c value (s.holding ch b)
  rw [← happlied] at hmax happly ⊢
  generalize hval : appliedValue (c.val + 1) value = v at hmax happly happlied ⊢
  let u := evalReady c (setWatermark c v s)
  have hother : ∀ k, k ≠ c → u.chans[k] = s.chans[k] := fun k hk => by
    rw [evalReady_other _ hk, setWatermark, modChan_other _ s hk]
  have hself : u.chans[c] = { s.chans[c] with
      watermark := v, ready := ({ s.chans[c] with watermark := v } : Channel).readyLevel } := by
    rw [evalReady_self, setWatermark, modChan_self]
  have huw : u.waiting = s.waiting := evalReady_waiting ..
  have hlevels : ∀ k, k ≠ c → (setWatermark c v (s.holding ch b)).chans[k].ready =
      (setWatermark c v (s.holding ch b)).chans[k].readyLevel := fun k hk => by
    rw [setWatermark, modChan_other _ _ hk]
    exact readyJudged_holding hq.toListening hr hb k
  have hall := (evalAll_one c hlevels).trans (evalReady_watermark_holding hq.toListening c hmax hb)
  have heffects : settingEffects (s.holding ch b) [(c.val + 1, value)] tag
      (applyParam (c.val + 1) v (s.holding ch b)) = u.holding ch b := by
    have hs : Steady (u.holding ch b) :=
      steady_of hq.steady (evalReady_pages ..) (evalReady_compositor ..) (evalReady_offer ..)
    have h8 : ¬ 8 ≤ c.val + 1 := by omega
    rw [happly]
    exact settingEffects_same hall (huw.trans hq.noWaiters) hs (evalReady_lowMark ..) (by simp [h8])
  have hvacant : Vacant ch u := by
    by_cases hc : ch = c
    · subst hc
      refine ⟨by rw [hself]; exact hq.empty, ?_, by rw [hself]; exact hmax⟩
      rw [hself, Channel.readyLevel, Channel.space, hq.empty, decide_eq_true_eq]
      exact Nat.le_trans hmax (by decide)
    · exact hq.vacant.same (hother ch hc)
  subst hval
  rw [deliver_set hq r ⟨by omega, by omega⟩ heffects hvacant (huw.trans hq.noWaiters) (fun k _ => ?_)
    (steady_of hq.steady (evalReady_pages ..) (evalReady_compositor ..) (evalReady_offer ..))
    (storeJudged_of hq.judged (evalReady_freeBlocks ..) (evalReady_storeLow ..) (evalReady_lowMark ..))]
  rw [← hq.still k]
  by_cases hk : k = c
  · subst hk
    exact presents_same (by rw [hself]) (by rw [hself]) huw
  · exact presents_same (by rw [hother k hk]) (by rw [hother k hk]) huw

/-! ## A class's interval (R167) -/

theorem applyParam_interval {cls : NoticeClass} (hc : cls ≠ .reply) (value : Nat) (s : State) :
    applyParam (intervalParam cls) (appliedValue (intervalParam cls) value) s = setClassInterval cls (min value 65535) s ∧
      appliedValue (intervalParam cls) value = min value 65535 ∧ 8 ≤ intervalParam cls ∧ intervalParam cls ≤ 14 := by
  have hclamp : clamp 0 Config.intervalMax value = min value 65535 := Nat.zero_max _
  cases cls with
  | reply => exact absurd rfl hc
  | channel | roster | portrait | page | sheet | store | table =>
    exact ⟨congrArg (setClassInterval _ · s) hclamp, hclamp, by decide, by decide⟩

/-- Settles O25: each parameter's change, and the acknowledgement that is stored after it. -/
theorem settingsTaken : Obligations.SettingsTaken := by
  intro ch tag value s hq hr ht hv
  have hq' := quiet_cleared hq
  have hr' : ReadyJudged s.cleared := hr
  have wf : (fitsBytes 4 tag && fitsBytes 4 value) = true := by
    simp only [fitsBytes, Bool.and_eq_true, decide_eq_true_eq]
    exact ⟨ht, hv⟩
  have record : ∀ (c : Instr) (param : Nat), c.wf = true → c.wireRecord = some (ch, setRecord tag [(param, value)]) →
      Sys2Proof.Laws.carriedKind c = some .set →
      recordForm c = some ⟨64, tag, [(8, 1, 1), (12, 2, param), (16, 4, value)], 20, []⟩ →
      exec c s = .next (deliver ch (setRecord tag [(param, value)]) s.cleared) ∧
        SetRecord (setRecord tag [(param, value)]) tag param value := fun c param hw hb hk hf =>
    ⟨exec_wireRecord hq.up hb, carriedRecord hw hb hk hf, setRecord_length ..⟩
  refine ⟨?_, ?_, ?_, ?_, fun target => ?_, fun cls hcls => ?_⟩
  · obtain ⟨he, r⟩ := record (.setStallLimit ch tag value) 5 wf rfl rfl rfl
    dsimp only
    rw [he, deliver_setPlain (t := { s.cleared with stallLimit := max 100 (min value 600000) }) hq' hr' r (by decide) rfl rfl rfl hq.steady
      hq.judged rfl]
    rfl
  · obtain ⟨he, r⟩ := record (.setGlobalTarget ch tag value) 6 wf rfl rfl rfl
    dsimp only
    rw [he, deliver_setPlain (t := { s.cleared with globalTarget := max 32 (min value 224) }) hq' hr' r (by decide) rfl rfl rfl hq.steady
      hq.judged rfl]
    rfl
  · obtain ⟨he, r⟩ := record (.setLead ch tag value) 7 wf rfl rfl rfl
    dsimp only
    rw [he, deliver_setPlain (t := { s.cleared with lead := max 1 (min value 64) }) hq' hr' r (by decide) rfl rfl rfl hq.steady
      hq.judged rfl]
    rfl
  · obtain ⟨he, r⟩ := record (.setStoreLowMark ch tag value) 15 wf rfl rfl rfl
    have hclamp : appliedValue 15 value = min value 229376 := Nat.zero_max _
    let t : State := { s.cleared with lowMark := min value 229376 }
    have happly : applyParam 15 (appliedValue 15 value) (s.cleared.holding ch (setRecord tag [(15, value)])) =
        t.holding ch (setRecord tag [(15, value)]) := by rw [hclamp]; rfl
    have hjudge : StoreJudged (judgeStore tag t) := storeJudged_judgeStore tag (Nat.min_le_right _ _)
    have hsame : t.lowMark = s.cleared.lowMark → judgeStore tag t = t := fun h =>
      judgeStore_judged tag (storeJudged_of hq.judged rfl rfl h)
    dsimp only
    rw [he, deliver_setting (t := t) (u := judgeStore tag t) hq' hr' r (by decide) happly rfl rfl hq.steady ?_
      (judgeStore_sameLink tag t) (steady_judgeStore tag hq.steady) hjudge, hclamp]
    have hno : [(15, value)].any (fun p => 8 ≤ p.1 && p.1 ≤ 14) = false := by simp
    rw [hno, State.holding, State.holding, ← judgeStore_modChan]
    split
    · rename_i h
      rw [judgeStore_modChan, hsame h]
      rfl
    · rfl
  · have hwf : (Instr.setReadyWatermark ch tag target value).wf = true := wf
    obtain ⟨he, r⟩ := record (.setReadyWatermark ch tag target value) (target.val + 1) hwf rfl rfl rfl
    dsimp only
    rw [he, deliver_setWatermark hq' hr' target r]
    rfl
  · have hwf : (Instr.setInterval ch tag cls value).wf = true := by
      simp only [Instr.wf, wf, Bool.true_and, decide_eq_true_eq]
      exact hcls
    obtain ⟨he, r⟩ := record (.setInterval ch tag cls value) (intervalParam cls) hwf rfl rfl rfl
    obtain ⟨happly, happlied, h8, h14⟩ := applyParam_interval hcls value (s.cleared.holding ch (setRecord tag [(intervalParam cls, value)]))
    let t : State := setClassInterval cls (min value 65535) s.cleared
    dsimp only
    rw [he, deliver_setting (t := t) (u := releaseRule t) hq' hr' r ⟨by omega, by omega⟩ happly rfl rfl hq.steady ?_
      ⟨releaseRule_chans t, releaseRule_waiting t⟩
      (steady_of hq.steady (releaseRule_pages t) (releaseRule_compositor t) (releaseRule_offer t))
      (storeJudged_of hq.judged (releaseRule_freeBlocks t) (releaseRule_storeLow t) (releaseRule_lowMark t)), happlied]
    · rfl
    · have hyes : [(intervalParam cls, value)].any (fun p => 8 ≤ p.1 && p.1 ≤ 14) = true := by simp [h8, h14]
      have hlow : t.lowMark = s.cleared.lowMark := rfl
      rw [if_pos hlow, hyes, if_pos rfl, State.holding, releaseRule_modChan]
      rfl

end Sys2Proof.Machine
end

section
/-! PROOF. What the notice unit does not read; CLEAR (R20, R38, R54, R57, R84, R108, R144, R161). -/

namespace Sys2Proof.Machine

/-! ## The notice unit reads the return queue, the gates, the return channel and the clock alone (R164, R168) -/

/-- The state with what the notice unit and the release rule may change. -/
def State.returning (s : State) (queue : List Held) (gates : Vector Gate 8) (channel : Option Transfer) (out : List Output)
    (wake : Bool) : State :=
  { s with returnQueue := queue, gates := gates, returnChannel := channel, out := out, wake := wake }

/-- A function that forgets parts of a state that the notice unit does not read. -/
structure Forgets (g : State → State) : Prop where
  now : ∀ s, (g s).now = s.now
  queue : ∀ s, (g s).returnQueue = s.returnQueue
  gates : ∀ s, (g s).gates = s.gates
  channel : ∀ s, (g s).returnChannel = s.returnChannel
  out : ∀ s, (g s).out = s.out
  forgets : ∀ s queue gates channel out wake,
    g ((g s).returning queue gates channel out wake) = g (s.returning queue gates channel out wake)
  wake : ∀ s wake, g { s with wake := wake } = g s

namespace Forgets

variable {g : State → State}

theorem idem (h : Forgets g) (s : State) : g (g s) = g s := by
  have := h.forgets s (g s).returnQueue (g s).gates (g s).returnChannel (g s).out (g s).wake
  rw [show (g s).returning (g s).returnQueue (g s).gates (g s).returnChannel (g s).out (g s).wake = g s from rfl, h.queue,
    h.gates, h.channel, h.out] at this
  rw [this]
  exact h.wake s _

theorem releaseRule (h : Forgets g) (s : State) : g (releaseRule (g s)) = g (releaseRule s) := by
  have hpick : (g s).pickReleasable [] (g s).returnQueue = s.pickReleasable [] s.returnQueue := by
    rw [h.queue]
    exact pickReleasable_congr (h.gates s) (h.now s) [] _
  unfold Machine.releaseRule
  rw [hpick, h.channel, h.gates, h.now]
  cases s.returnChannel with
  | some t => exact h.idem s
  | none =>
    cases s.pickReleasable [] s.returnQueue with
    | none => exact h.idem s
    | some x =>
      dsimp only [wakeUp, emit]
      rw [h.out]
      refine Eq.trans (congrArg g ?_) (h.forgets s _ _ _ _ _)
      rw [← h.now s]
      rfl

/-- Where two states come to the same but for what `g` forgets, so they do after a notice. -/
theorem notify (h : Forgets g) (code : NoticeCode) (tag subject : Nat) (detail : List Item) {s t : State} (e : g s = g t) :
    g (notify code tag subject detail s) = g (notify code tag subject detail t) := by
  have key : ∀ s, g (Machine.notify code tag subject detail (g s)) = g (Machine.notify code tag subject detail s) := by
    intro s
    have stored : ∀ queue gates, g (Machine.releaseRule { g s with returnQueue := queue, gates := gates }) =
        g (Machine.releaseRule { s with returnQueue := queue, gates := gates }) := by
      intro queue gates
      rw [← h.releaseRule { s with returnQueue := queue, gates := gates }, ← h.releaseRule]
      have e1 := h.forgets s queue gates (g s).returnChannel (g s).out (g s).wake
      have e2 := h.wake (s.returning queue gates s.returnChannel s.out s.wake) (g s).wake
      rw [h.channel, h.out] at e1
      have e3 : g { g s with returnQueue := queue, gates := gates } = g { s with returnQueue := queue, gates := gates } := by
        refine Eq.trans ?_ (e1.trans e2)
        rw [← h.channel s, ← h.out s]
        rfl
      rw [e3]
    have hn : (g s).noticesHeld = s.noticesHeld := by rw [State.noticesHeld, State.noticesHeld, h.queue]
    unfold Machine.notify post
    rw [hn, h.queue]
    split
    · rw [← h.gates s]
      exact (stored _ _).trans (by rw [h.gates])
    · rw [setOverrun, setOverrun, h.gates, ← h.queue s]
      exact (stored _ _).trans (by rw [h.queue])
  rw [← key s, e, key t]

end Forgets

theorem forgets_rested : Forgets State.rested :=
  ⟨fun _ => rfl, fun _ => rfl, fun _ => rfl, fun _ => rfl, fun _ => rfl, fun _ _ _ _ _ _ => rfl, fun _ _ => rfl⟩

/-- The judging of the store low state does not read whether an examination is owed. -/
theorem judgeStore_rested (tag : Nat) {s t : State} (e : s.rested = t.rested) :
    (judgeStore tag s).rested = (judgeStore tag t).rested := by
  have key : ∀ s : State, (judgeStore tag s.rested).rested = (judgeStore tag s).rested := by
    intro s
    have hlow : s.rested.storeLow = s.storeLow := rfl
    have hmark : s.rested.lowMark = s.lowMark := rfl
    have hfree : s.rested.freeCount = s.freeCount := rfl
    unfold judgeStore
    rw [hlow, hmark, hfree]
    split
    · split
      · exact forgets_rested.notify (t := { s with storeLow := false }) _ _ _ _ rfl
      · rfl
    · split
      · exact forgets_rested.notify (t := { s with storeLow := true, lowSeen := true }) _ _ _ _ rfl
      · rfl
  rw [← key s, e, key t]

/-! ## The open portraits that a CLEAR abandons (R54) -/

/-- What a CLEAR leaves of a state where the channels are left as `chans`, with no examination owed. -/
def State.bared (chans : Vector Channel 4) (s : State) : State := { emptyTables s with chans := chans, wake := false }

theorem forgets_bared (chans : Vector Channel 4) : Forgets (State.bared chans) :=
  ⟨fun _ => rfl, fun _ => rfl, fun _ => rfl, fun _ => rfl, fun _ => rfl, fun _ _ _ _ _ _ => rfl, fun _ _ => rfl⟩

theorem tellAbandoned_forgets {g : State → State} (h : Forgets g) (tag : Nat) (gone : List (Entry × Version)) {s t : State}
    (e : g s = g t) : g (State.tellAbandoned tag gone s) = g (State.tellAbandoned tag gone t) := by
  induction gone generalizing s t with
  | nil => exact e
  | cons x rest ih => exact ih (h.notify _ _ _ _ e)

/-- The filling version of a key, with its entry. -/
def State.filling? (s : State) (key : Nat) : Option (Entry × Version) :=
  (s.entry? key).bind fun e => (e.incoming.filter Version.filling).map (e, ·)

theorem filling?_none {s : State} {key : Nat} (h : s.fillingVersion key = none) : s.filling? key = none := by
  rw [fillingVersion_none_iff] at h
  rw [State.filling?, Option.bind_eq_none_iff]
  intro e he
  rw [h e he]
  rfl

theorem failPortrait_entry?_other {key k : Nat} (hk : k ≠ key) (reason : FailReason) (tag : Nat) (extra : List Item) (s : State) :
    (failPortrait key reason tag extra s).entry? k = s.entry? k := by
  unfold failPortrait
  split
  · rfl
  · rename_i e he
    have hkey : e.key = key := entry?_key he
    split
    · rfl
    · rw [State.entry?, notify_entries]
      exact find?_replaceFirst_ne _ _ _ (by simp [hkey, Ne.symm hk]) (fun a ha => by
        simp only [decide_eq_true_eq] at ha
        simp [ha, hkey, Ne.symm hk]) _

/-- Beside the failed key's, the filling versions stand. -/
theorem failPortrait_filling? (key k : Nat) (reason : FailReason) (tag : Nat) (extra : List Item) (s : State) :
    (failPortrait key reason tag extra s).filling? k = if (!k == key) = true then s.filling? k else none := by
  by_cases hk : k = key
  · subst hk
    rw [filling?_none (failPortrait_fillingVersion ..), if_neg (by simp)]
  · rw [State.filling?, failPortrait_entry?_other hk, if_pos (by simpa using hk)]
    rfl

/-- An abandonment tells of the filling version where there is one; the rest of its effect a CLEAR makes up for. -/
theorem failPortrait_bared (chans : Vector Channel 4) (key tag : Nat) (s : State) :
    (failPortrait key .abandoned tag [] s).bared chans =
      (State.tellAbandoned tag (s.filling? key).toList s).bared chans := by
  cases hv : s.fillingVersion key with
  | none => rw [failPortrait_none _ _ _ hv, filling?_none hv]; rfl
  | some v =>
    cases he : s.entry? key with
    | none => rw [State.fillingVersion, he] at hv; cases hv
    | some e =>
      rw [State.fillingVersion, he] at hv
      have hf : s.filling? key = some (e, v) := by
        rw [State.filling?, he, Option.bind_some]
        exact congrArg (Option.map (e, ·)) hv
      obtain rfl := entry?_key he
      rw [failPortrait_filling _ _ _ he hv, hf]
      exact (forgets_bared chans).notify _ _ _ _ rfl

theorem filter_eraseDups {α : Type} [BEq α] [LawfulBEq α] (p : α → Bool) (l : List α) :
    (l.filter p).eraseDups = l.eraseDups.filter p := by
  generalize hn : l.length = n
  induction n using Nat.strong_induction_on generalizing l with
  | _ n ih =>
    cases l with
    | nil => rfl
    | cons a rest =>
      have hlt : (rest.filter fun b => !b == a).length < n := by
        rw [← hn]
        exact Nat.lt_succ_of_le (List.length_filter_le _ _)
      rw [List.eraseDups_cons]
      by_cases ha : p a = true
      · rw [List.filter_cons_of_pos ha, List.filter_cons_of_pos ha, List.eraseDups_cons, ← ih _ hlt _ rfl, List.filter_filter,
          List.filter_filter]
        simp only [Bool.and_comm]
      · rw [List.filter_cons_of_neg ha, List.filter_cons_of_neg ha, ← ih _ hlt _ rfl, List.filter_filter]
        congr 1
        refine List.filter_congr fun b _ => ?_
        by_cases hb : b = a
        · subst hb; simp [ha]
        · simp [hb]

/-- The keys that channels of a list hold open. -/
def State.openKeys (s : State) (l : List Chan) : List Nat := l.filterMap fun ch => s.chans[ch].binding.openKey

theorem openKeys_congr {s t : State} {l : List Chan} (h : ∀ c ∈ l, t.chans[c] = s.chans[c]) : t.openKeys l = s.openKeys l :=
  List.filterMap_congr fun c hc => by rw [h c hc]

/-- The filling versions of keys, each key told once. -/
def State.fillings (s : State) (keys : List Nat) : List (Entry × Version) := keys.eraseDups.filterMap s.filling?

theorem openPortraits_eq (s : State) : s.openPortraits = s.fillings (s.openKeys (List.finRange 4)) := rfl

/-- The first key's filling version comes first; failing it takes it from those that follow. -/
theorem fillings_cons (s : State) (key tag : Nat) (reason : FailReason) (keys : List Nat) : s.fillings (key :: keys) =
    (s.filling? key).toList ++ (failPortrait key reason tag [] s).fillings keys := by
  have hrest : keys.eraseDups.filterMap (failPortrait key reason tag [] s).filling? =
      (keys.filter fun k => !k == key).eraseDups.filterMap s.filling? := by
    rw [filter_eraseDups, List.filterMap_filter]
    exact List.filterMap_congr fun k _ => failPortrait_filling? ..
  rw [State.fillings, State.fillings, List.eraseDups_cons, hrest, List.filterMap_cons]
  cases s.filling? key <;> rfl

/-- What the abandonment of the open portraits of some channels leaves, but for what a CLEAR makes up for: it tells of each. -/
theorem foldl_abandonOpen_bared (chans : Vector Channel 4) (tag : Nat) (l : List Chan) (hl : l.Nodup) (s : State) :
    (l.foldl (fun s ch => abandonOpen ch tag .skipping s) s).bared chans =
      (State.tellAbandoned tag (s.fillings (s.openKeys l)) s).bared chans := by
  induction l generalizing s with
  | nil => rfl
  | cons c rest ih =>
    obtain ⟨hc, hrest⟩ := List.nodup_cons.1 hl
    have hkeys : (abandonOpen c tag .skipping s).openKeys rest = s.openKeys rest :=
      openKeys_congr fun k hk => abandonOpen_other tag _ s fun e => hc (e ▸ hk)
    rw [List.foldl_cons, ih hrest, hkeys]
    have closed : s.chans[c].binding.openKey = none → (∀ key n, s.chans[c].binding ≠ .opened key n) →
        (State.tellAbandoned tag ((abandonOpen c tag .skipping s).fillings (s.openKeys rest))
          (abandonOpen c tag .skipping s)).bared chans =
        (State.tellAbandoned tag (s.fillings (s.openKeys (c :: rest))) s).bared chans := by
      intro hkey hb
      rw [abandonOpen_closed hb, State.openKeys, State.openKeys, List.filterMap_cons, hkey]
    cases hb : s.chans[c].binding with
    | unbound => exact closed (by rw [hb]; rfl) (by rw [hb]; exact fun _ _ => nofun)
    | skipping key => exact closed (by rw [hb]; rfl) (by rw [hb]; exact fun _ _ => nofun)
    | opened key n =>
      have hopen : s.openKeys (c :: rest) = key :: s.openKeys rest := by
        rw [State.openKeys, List.filterMap_cons, hb]
        rfl
      have hfill : (abandonOpen c tag .skipping s).fillings (s.openKeys rest) =
          (failPortrait key .abandoned tag [] s).fillings (s.openKeys rest) := by
        rw [abandonOpen_opened hb]
        rfl
      rw [hopen, fillings_cons s key tag .abandoned, hfill, State.tellAbandoned, State.tellAbandoned, List.foldl_append]
      refine tellAbandoned_forgets (forgets_bared chans) tag _ ?_
      rw [abandonOpen_opened hb]
      exact failPortrait_bared chans key tag s

/-! ## The channels after a CLEAR (R54) -/

/-- A channel after a CLEAR: its OPEN binding is a SKIP of its key. -/
def Channel.skipOpened (c : Channel) : Channel :=
  { c with binding := match c.binding with
    | .opened key _ => .skipping key
    | .skipping key => .skipping key
    | .unbound => .unbound }

theorem skipOpen_get (chans : Vector Channel 4) (ch : Chan) : (skipOpen (fun _ => true) chans)[ch] = chans[ch].skipOpened := by
  rw [skipOpen]
  exact Vector.getElem_map ..

theorem skipOpened_closed {c : Channel} (h : c.binding.openKey = none) : c.skipOpened = c := by
  unfold Channel.skipOpened
  cases hb : c.binding with
  | opened key n => rw [hb] at h; cases h
  | unbound | skipping key => exact (congrArg (fun bd => { c with binding := bd }) hb).symm

theorem abandonOpen_self (ch : Chan) (tag : Nat) (s : State) :
    (abandonOpen ch tag .skipping s).chans[ch] = s.chans[ch].skipOpened := by
  cases hb : s.chans[ch].binding with
  | opened key n =>
    rw [abandonOpen_opened hb, setBinding, modChan_self, failPortrait_chans, Channel.skipOpened, hb]
  | unbound | skipping key =>
    rw [abandonOpen_closed (by rw [hb]; exact fun _ _ => nofun), skipOpened_closed]
    rw [hb]
    rfl

theorem foldl_abandonOpen_chans (tag : Nat) (l : List Chan) (hl : l.Nodup) (s : State) (c : Chan) :
    (l.foldl (fun s ch => abandonOpen ch tag .skipping s) s).chans[c] =
      if c ∈ l then s.chans[c].skipOpened else s.chans[c] := by
  induction l generalizing s with
  | nil => rfl
  | cons a rest ih =>
    obtain ⟨ha, hrest⟩ := List.nodup_cons.1 hl
    rw [List.foldl_cons, ih hrest]
    by_cases hc : c = a
    · subst hc
      rw [if_neg ha, if_pos List.mem_cons_self, abandonOpen_self]
    · rw [abandonOpen_other tag _ s hc]
      simp only [List.mem_cons, hc, false_or]

theorem abandonAll_chans (tag : Nat) (s : State) : (abandonAll tag s).chans = skipOpen (fun _ => true) s.chans := by
  refine Vector.ext fun i hi => ?_
  have h : (abandonAll tag s).chans[(⟨i, hi⟩ : Chan)] = _ := foldl_abandonOpen_chans tag _ (List.nodup_finRange 4) s ⟨i, hi⟩
  rw [if_pos (List.mem_finRange _), ← skipOpen_get] at h
  exact h

theorem abandonOpen_waiting (ch : Chan) (tag : Nat) (after : Nat → Binding) (s : State) :
    (abandonOpen ch tag after s).waiting = s.waiting := by
  unfold abandonOpen
  split
  · exact (failPortrait_sameLink ..).2
  · rfl

theorem abandonAll_waiting (tag : Nat) (s : State) : (abandonAll tag s).waiting = s.waiting := by
  rw [abandonAll]
  generalize List.finRange 4 = l
  induction l generalizing s with
  | nil => rfl
  | cons c rest ih => rw [List.foldl_cons, ih, abandonOpen_waiting]

/-! ## A record in a channel's buffer takes no part in a CLEAR -/

theorem abandonOpen_holding (ch c : Chan) (b : List Byte) (tag : Nat) (s : State) :
    abandonOpen c tag .skipping (s.holding ch b) = (abandonOpen c tag .skipping s).holding ch b := by
  have hb : (s.holding ch b).chans[c].binding = s.chans[c].binding := by
    by_cases hc : c = ch
    · subst hc; rw [holding_self]
    · rw [holding_other _ _ hc]
  cases h : s.chans[c].binding with
  | unbound | skipping key =>
    have hn : ∀ key n, s.chans[c].binding ≠ .opened key n := by rw [h]; exact fun _ _ => nofun
    rw [abandonOpen_closed hn, abandonOpen_closed (hb ▸ hn)]
  | opened key n =>
    rw [abandonOpen_opened h, abandonOpen_opened (hb.trans h), State.holding, State.holding, failPortrait_modChan]
    by_cases hc : c = ch
    · subst hc; rw [setBinding, setBinding, modChan_modChan, modChan_modChan]
    · exact (modChan_comm hc _ _ _).symm

theorem abandonAll_holding (ch : Chan) (b : List Byte) (tag : Nat) (s : State) :
    abandonAll tag (s.holding ch b) = (abandonAll tag s).holding ch b := by
  unfold abandonAll
  generalize List.finRange 4 = l
  induction l generalizing s with
  | nil => rfl
  | cons c rest ih => rw [List.foldl_cons, List.foldl_cons, abandonOpen_holding, ih]

/-! ## The head port at a CLEAR (R161) -/

theorem foldl_emit {α : Type} (f : α → Output) (l : List α) (s : State) :
    l.foldl (fun s x => emit (f x) s) s = { s with out := s.out ++ l.map f } := by
  induction l generalizing s with
  | nil =>
    rw [List.map_nil, List.append_nil]
    rfl
  | cons x rest ih =>
    rw [List.foldl_cons, ih]
    simp [emit]

/-- The ids of the pages at the press, oldest first. -/
def State.atPress (s : State) : List Nat := s.path ++ (s.offer.map fun o => o.page).toList

/-- What a CLEAR sends at the press. -/
def State.purges (s : State) : List Output :=
  (if s.sending = none then [] else [.bandAborted]) ++ s.atPress.map Output.purge

/-- The state with the head port let go of every page, and `purge` the purge list. -/
def State.pressCleared (purge : List Nat) (s : State) : State :=
  { s with sending := none, offer := none, path := [], cursor := none, purge := purge }

theorem purgePress_eq (s : State) : purgePress s =
    State.pressCleared (trimPurge (s.purge ++ s.atPress)) { s with out := s.out ++ s.purges } := by
  unfold purgePress State.purges
  cases h : s.sending with
  | none =>
    dsimp only
    rw [foldl_emit, if_pos rfl, State.pressCleared, ← h]
    rfl
  | some x =>
    dsimp only
    rw [foldl_emit, if_neg (by simp), ← List.append_assoc s.out]
    rfl

/-- A head port that has let go of every page. -/
structure PressFree (purge : List Nat) (s : State) : Prop where
  sending : s.sending = none
  offer : s.offer = none
  path : s.path = []
  cursor : s.cursor = none
  purge : s.purge = purge

theorem PressFree.cleared {purge : List Nat} {s : State} (h : PressFree purge s) : s.pressCleared purge = s := by
  obtain ⟨h1, h2, h3, h4, h5⟩ := h
  unfold State.pressCleared
  rw [← h1, ← h2, ← h3, ← h4, ← h5]

theorem tellAbandoned_pressFree {purge : List Nat} (tag : Nat) (gone : List (Entry × Version)) {s : State}
    (h : PressFree purge s) : PressFree purge (State.tellAbandoned tag gone s) := by
  induction gone generalizing s with
  | nil => exact h
  | cons x rest ih =>
    refine ih ⟨?_, ?_, ?_, ?_, ?_⟩
    · rw [notify_sending, h.sending]
    · rw [notify_offer, h.offer]
    · rw [notify_path, h.path]
    · rw [notify_cursor, h.cursor]
    · rw [notify_purge, h.purge]

/-! ## CLEAR -/

/-- The state that a CLEAR leaves, but for the count of the record and the judging of the store low state. -/
def State.afterClear (tag : Nat) (s : State) : State := wakeUp (emptyTables (abandonAll tag (purgePress s)))

theorem emptied_chans (s : State) : (wakeUp (emptyTables s)).chans = s.chans := rfl

theorem emptied_waiting (s : State) : (wakeUp (emptyTables s)).waiting = s.waiting := rfl

theorem emptied_rested (s : State) : (wakeUp (emptyTables s)).rested = s.bared s.chans := (rfl)

theorem emptied_steady (s : State) : Steady (wakeUp (emptyTables s)) := .inl ⟨rfl, rfl⟩

theorem emptied_holding (ch : Chan) (b : List Byte) (s : State) :
    wakeUp (emptyTables (s.holding ch b)) = (wakeUp (emptyTables s)).holding ch b := (rfl)

theorem pressCleared_holding (ch : Chan) (b : List Byte) (purge : List Nat) (out : List Output) (s : State) :
    State.pressCleared purge { s.holding ch b with out := out } = (State.pressCleared purge { s with out := out }).holding ch b := rfl

theorem purgePress_waiting (s : State) : (purgePress s).waiting = s.waiting := (purgePress_sameLink s).2

theorem purgePress_chans (s : State) : (purgePress s).chans = s.chans := (purgePress_sameLink s).1

theorem judgeClear_holding {ch : Chan} {s : State} (hw : s.waiting = []) (b : List Byte) :
    judgeClear b (s.holding ch b) = .taken ((s.afterClear (recTag b)).holding ch b) := by
  have hpress : purgePress (s.holding ch b) = (purgePress s).holding ch b := by
    rw [purgePress_eq, purgePress_eq]
    exact pressCleared_holding ..
  have hwait : (abandonAll (recTag b) (purgePress (s.holding ch b))).waiting = [] := by
    rw [abandonAll_waiting, purgePress_waiting, holding_waiting, hw]
  have hdrop : ∀ t : State, t.waiting = [] → dropAllWaiting t = t := fun t ht => by rw [dropAllWaiting, ht]; rfl
  rw [judgeClear, hdrop _ hwait, hpress, abandonAll_holding, emptied_holding, State.afterClear]

theorem afterClear_chans (tag : Nat) (s : State) : (s.afterClear tag).chans = skipOpen (fun _ => true) s.chans := by
  rw [State.afterClear, emptied_chans, abandonAll_chans, purgePress_chans]

/-- The open portraits' failures are told, and the tables, the bindings and the head port are as a CLEAR leaves them. -/
theorem afterClear_rested (tag : Nat) (s : State) : (s.afterClear tag).rested =
    ((State.tellAbandoned tag s.openPortraits { s with out := s.out ++ s.purges }).pressCleared
      (trimPurge (s.purge ++ s.atPress))).bared (skipOpen (fun _ => true) s.chans) := by
  generalize hpurge : trimPurge (s.purge ++ s.atPress) = purge
  generalize hchans : skipOpen (fun _ => true) s.chans = chans
  have hp : purgePress s = State.pressCleared purge { s with out := s.out ++ s.purges } := by rw [purgePress_eq, hpurge]
  have hopen : (purgePress s).openPortraits = s.openPortraits := by rw [hp]; rfl
  have forgets : Forgets fun u => (u.pressCleared purge).bared chans :=
    ⟨fun _ => rfl, fun _ => rfl, fun _ => rfl, fun _ => rfl, fun _ => rfl, fun _ _ _ _ _ _ => rfl, fun _ _ => rfl⟩
  have free : PressFree purge (State.tellAbandoned tag s.openPortraits (purgePress s)) :=
    tellAbandoned_pressFree tag _ (by rw [hp]; exact ⟨rfl, rfl, rfl, rfl, rfl⟩)
  calc (s.afterClear tag).rested
      = (abandonAll tag (purgePress s)).bared chans := by
        rw [State.afterClear, emptied_rested, abandonAll_chans, purgePress_chans, hchans]
    _ = (State.tellAbandoned tag s.openPortraits (purgePress s)).bared chans := by
        rw [← hopen, openPortraits_eq]
        exact foldl_abandonOpen_bared chans tag _ (List.nodup_finRange 4) _
    _ = ((State.tellAbandoned tag s.openPortraits (purgePress s)).pressCleared purge).bared chans := by rw [free.cleared]
    _ = _ := tellAbandoned_forgets forgets tag _ (by rw [hp]; rfl)

theorem rested_counted (ch : Chan) (s : State) : (s.counted ch).rested = s.rested.counted ch := rfl

theorem deliver_clear {ch : Chan} {s : State} (hq : Quiet ch s) {b : List Byte} {tag : Nat}
    (r : CarriedRecord b .clear ⟨81, tag, [], 8, []⟩) :
    deliver ch b s = (judgeStore tag ((s.afterClear tag).counted ch)).rested := by
  obtain rfl : recTag b = tag := r.reads.tag
  have hchan : ∀ c : Chan, (s.afterClear (recTag b)).chans[c] = s.chans[c].skipOpened := fun c => by
    rw [afterClear_chans, skipOpen_get]
  have hwait : (s.afterClear (recTag b)).waiting = s.waiting := by
    rw [State.afterClear, emptied_waiting, abandonAll_waiting, purgePress_waiting]
  refine deliver_takenFrom hq r.whole r.checked rfl (judgeClear_holding hq.noWaiters b) (Nat.le_refl _)
    ⟨?_, ?_, ?_⟩ (hwait.trans hq.noWaiters) (fun c _ => ?_) (emptied_steady _)
  · rw [hchan]; exact hq.empty
  · rw [hchan]; exact hq.ready
  · rw [hchan]; exact hq.mark
  · rw [← hq.still c]
    exact presents_same (by rw [hchan]; rfl) (by rw [hchan]; rfl) hwait

/-- Settles O29: what the CLEAR leaves, with its count and the judging of the store low state. -/
theorem clear : Obligations.Clear := by
  intro ch tag s hq ht
  have hw : (Instr.clear ch tag).wf = true := by simpa [Instr.wf, fitsBytes] using ht
  have r : CarriedRecord (clearRecord tag) .clear ⟨81, tag, [], 8, []⟩ := carriedRecord (c := .clear ch tag) hw rfl rfl rfl
  intro atPress ids told
  have htold : told = State.tellAbandoned tag s.cleared.openPortraits
    { s.cleared with out := s.cleared.out ++ s.cleared.purges } := rfl
  have hpurge : ids.drop (ids.length - 8) = trimPurge (s.cleared.purge ++ s.cleared.atPress) := rfl
  have hafter := afterClear_rested tag s.cleared
  rw [← htold, ← hpurge] at hafter
  clear_value told ids
  rw [exec_wireRecord (c := .clear ch tag) hq.up rfl, deliver_clear (quiet_cleared hq) r]
  refine congrArg Host.Outcome.next (judgeStore_rested tag ?_)
  rw [rested_counted, hafter]
  rfl

end Sys2Proof.Machine
end

section
/-! PROOF. PORTRAIT_HEAD: the admission order and the open portrait that a head ends (R11, R41 to R47, R53, R55, R61). -/

namespace Sys2Proof.Machine

/-! ## A record that waits, where an examination may be owed (R13, R15) -/

/-- A state, nothing waiting and nothing to begin in it, in which a channel's record is judged. -/
structure Judging (ch : Chan) (s : State) : Prop where
  vacant : Vacant ch s
  noWaiters : s.waiting = []
  others : ∀ c, c ≠ ch → s.presents c = false
  steady : Steady s
  judged : StoreJudged s

theorem Quiet.judging {ch : Chan} {s : State} (h : Quiet ch s) : Judging ch s :=
  ⟨h.vacant, h.noWaiters, fun c _ => h.still c, h.steady, h.judged⟩

section

variable {ch : Chan} {w : State} {b : List Byte} {kind : Resource}

theorem deferRecord_holding (h : Judging ch w) : deferRecord ch kind (w.holding ch b) = w.deferredOn ch b kind := by
  have hstall : (w.holding ch b).stalled ch = false := by
    rw [State.stalled, State.waitOf, holding_waiting, h.noWaiters]; rfl
  rw [deferRecord, hstall]
  simp [State.deferredOn, State.holding, modChan]

theorem deferredOn_waiting (h : Judging ch w) :
    (w.deferredOn ch b kind).waiting = [{ ch := ch, kind := kind, start := w.now }] := by
  simp only [State.deferredOn, h.noWaiters, List.nil_append]

theorem deferredOn_chans :
    (w.deferredOn ch b kind).chans = (modChan ch (fun c => { c with buffer := b, stalls := bump c.stalls }) w).chans := rfl

theorem deferredOn_presents (h : Judging ch w) (c : Chan) : (w.deferredOn ch b kind).presents c = false := by
  have hwait := deferredOn_waiting (b := b) (kind := kind) h
  by_cases hc : c = ch
  · subst hc
    have hstall : (w.deferredOn c b kind).stalled c = true := by
      rw [State.stalled, State.waitOf, hwait]
      simp
    simp only [State.presents, hstall]
    simp
  · have hchan : (w.deferredOn ch b kind).chans[c] = w.chans[c] := by
      rw [deferredOn_chans, modChan_other _ w hc]
    have hstall : (w.deferredOn ch b kind).stalled c = w.stalled c := by
      rw [State.stalled, State.stalled, State.waitOf, State.waitOf, hwait, h.noWaiters]
      simp [Ne.symm hc]
    have := h.others c hc
    simpa only [State.presents, hchan, hstall] using this

theorem deferredOn_tasks (h : Judging ch w) :
    (w.deferredOn ch b kind).tasks = if w.wake then [.examination] else [] := by
  have hpresents : (w.deferredOn ch b kind).presents = fun _ => false := funext (deferredOn_presents h)
  have hwake : (w.deferredOn ch b kind).wake = w.wake := rfl
  rw [State.tasks, hpresents, deferredOn_waiting h, hwake]
  simp

/-- The examination of the only waiting record defers it again where its owner answers with the same kind. -/
theorem examine_deferredOn (h : Judging ch w) (hb : IsRecord b)
    (hagain : judgeRecord ch b (w.deferredOn ch b kind).rested = .deferred kind) :
    examine (w.deferredOn ch b kind) = (w.deferredOn ch b kind).rested := by
  have hwait := deferredOn_waiting (b := b) (kind := kind) h
  let d := (w.deferredOn ch b kind).rested
  have hdwait : d.waiting = [{ ch := ch, kind := kind, start := w.now }] := hwait
  have hentry : d.waitOf ch = some { ch := ch, kind := kind, start := w.now } := by
    rw [State.waitOf, hdwait]
    simp
  have hfront : d.chans[ch].front = b := by
    have hbuf : d.chans[ch].buffer = b := by
      show (w.deferredOn ch b kind).chans[ch].buffer = b
      rw [deferredOn_chans, modChan_self]
    rw [Channel.front, hbuf, hb.counts, List.take_length]
  have hdefer : deferRecord ch kind d = d := by
    have hstall : d.stalled ch = true := by rw [stalled_eq_waitOf, hentry]; rfl
    have hmap : (d.waiting.map fun e => if e.ch = ch then { e with kind := kind } else e) = d.waiting := by
      rw [hdwait]
      simp
    rw [deferRecord, hstall, if_pos rfl, hmap]
  have hconclude : pump (conclude ch b (judgeRecord ch b d) d) = d := by
    have hj : judgeStore (recTag b) d = d := judgeStore_judged _ h.judged
    have hs : pump d = d := pump_steady h.steady
    rw [hagain, conclude]
    simp only [hdefer, hj, hs]
  have hstep : (examineEntry ([], d) ch).2 = d := by
    simp only [examineEntry, hentry, hfront, hconclude]
    rfl
  have hexamine : examine (w.deferredOn ch b kind) = (examineEntry ([], d) ch).2 := by
    show (((w.deferredOn ch b kind).waiting.map (·.ch)).foldl examineEntry ([], d)).2 = _
    rw [hwait]
    rfl
  rw [hexamine, hstep]

/-- A record that its owner defers on the state `w` waits; an examination that is owed defers it again (R9, R13 to R15). -/
theorem deliver_deferredFrom {s : State} (hq : Listening ch s) (hb : IsRecord b) (h : Judging ch w)
    (hp : presentRecord ch b (s.holding ch b) = conclude ch b (.deferred kind) (w.holding ch b))
    (hagain : judgeRecord ch b (w.deferredOn ch b kind).rested = .deferred kind) :
    deliver ch b s = (w.deferredOn ch b kind).rested := by
  have hj : judgeStore (recTag b) (w.deferredOn ch b kind) = w.deferredOn ch b kind := judgeStore_judged _ h.judged
  have hs : pump (w.deferredOn ch b kind) = w.deferredOn ch b kind := pump_steady h.steady
  have hpresent : pump (presentRecord ch b (s.holding ch b)) = w.deferredOn ch b kind := by
    rw [hp, conclude]
    simp only [deferRecord_holding h, hj, hs]
  have htasks := deferredOn_tasks (b := b) (kind := kind) h
  rw [deliver_presented hq hb, State.presented, hpresent]
  cases hwake : w.wake with
  | false =>
    rw [hwake] at htasks
    exact settleFor_still _ htasks
  | true =>
    rw [hwake] at htasks
    have hrest : (w.deferredOn ch b kind).rested.tasks = [] := by
      have hpresents : (w.deferredOn ch b kind).rested.presents = fun _ => false := funext (deferredOn_presents h)
      have hoff : (w.deferredOn ch b kind).rested.wake = false := rfl
      rw [State.tasks, hpresents, hoff]
      simp
    rw [settleFor, htasks]
    simp only [choose, runTask, if_true, examine_deferredOn h hb hagain]
    exact settleFor_still _ hrest

/-! ## A head refused on such a state (R9, R11) -/

/-- A head refused on the state `w` is counted and reported, and its channel skips its key (R9, R11). -/
theorem deliver_refusedHead {s : State} (hq : Listening ch s) (hb : IsRecord b) (h : Judging ch w)
    (hk : recKind b = some .portraitHead) {key : Nat} (hkey : recKey? b = some key) {reason : Reason} {extra : List Item}
    (hp : presentRecord ch b (s.holding ch b) = conclude ch b (.refused reason extra) (w.holding ch b)) :
    deliver ch b s = (setBinding ch (.skipping key)
      (w.refusedOn ch (recTag b) (recSubject b) (recKindCode b) reason extra)).rested := by
  let f : Channel → Channel := fun c => { c with refused := bump c.refused, binding := .skipping key }
  let t : State := notify .refused (recTag b) (recSubject b)
    ([.two ch, .two (recKindCode b), .two reason.code] ++ extra) w
  have hf : KeepsIntake f := ⟨fun _ => rfl, fun _ => rfl, fun _ => rfl, fun _ _ => rfl⟩
  have hunwait : unwait ch (w.holding ch b) = w.holding ch b := unwait_none h.noWaiters
  have hskip : ∀ x, skipRefusedHead ch b x = setBinding ch (.skipping key) x := fun x => by
    rw [skipRefusedHead, hk, hkey]
  have hchans : t.chans = w.chans := notify_chans ..
  have hwait : t.waiting = w.waiting := notify_waiting ..
  have hv : Vacant ch t := h.vacant.same (by rw [hchans])
  have hrefused : setBinding ch (.skipping key) (w.refusedOn ch (recTag b) (recSubject b) (recKindCode b) reason extra) =
      modChan ch f t := by
    rw [State.refusedOn, notify_modChan, setBinding, modChan_modChan]
  have hj : StoreJudged (modChan ch f t) :=
    storeJudged_of h.judged (notify_freeBlocks ..) (notify_storeLow ..) (notify_lowMark ..)
  rw [deliver_disposed hq hb (t := modChan ch f t) ?_ (hv.modChan hf) (hwait.trans h.noWaiters) (fun c hc => ?_)
    (steady_of h.steady (notify_pages ..) (notify_compositor ..) (notify_offer ..)), judgeStore_judged _ hj, hrefused]
  · rw [hp, conclude]
    simp only [hunwait, hskip]
    rw [notify_modChan, State.holding, notify_modChan, ← State.holding, setBinding, modChan_modChan]
    exact congrArg (judgeStore _) (dropFront_vacant hf hv (Nat.le_refl _))
  · rw [← h.others c hc]
    have e : (modChan ch f t).chans[c] = w.chans[c] := by rw [modChan_other _ _ hc, hchans]
    exact presents_same (by rw [e]) (by rw [e]) hwait

end

/-! ## The admission (R42, R47, R61) -/

theorem setBinding_holding (ch : Chan) (b : List Byte) (bd : Binding) (s : State) :
    setBinding ch bd (s.holding ch b) = (setBinding ch bd s).holding ch b := by
  rw [State.holding, State.holding, setBinding, setBinding, modChan_modChan, modChan_modChan]

theorem replaceFirst_append {α : Type} {p : α → Bool} (x y : α) (hy : p y = true) (l : List α) (hl : l.find? p = none) :
    replaceFirst p x (l ++ [y]) = l ++ [x] := by
  induction l with
  | nil => simp [replaceFirst, hy]
  | cons a rest ih =>
    rw [List.find?_eq_none] at hl
    have ha : ¬ p a = true := hl a List.mem_cons_self
    have hrest : rest.find? p = none := List.find?_eq_none.2 fun z hz => hl z (List.mem_cons_of_mem a hz)
    simp [replaceFirst, ha, ih hrest]

/-- The version that a head makes where the free list is `free`. -/
def headVersion (b : List Byte) (free : List Run) : Version :=
  admittedVersion b (takeBlocks (reservation (field b 14 2) (field b 16 2)) free).1

/-- The state with a head's version in the incoming role of an entry, and its blocks taken. -/
def State.withVersion (b : List Byte) (e : Entry) (s : State) : State :=
  { s.putEntry { e with incoming := some (headVersion b s.freeBlocks) } with
    freeBlocks := (takeBlocks (reservation (field b 14 2) (field b 16 2)) s.freeBlocks).2 }

/-- The state in which a head has been admitted into an entry. -/
def State.admittedHead (ch : Chan) (b : List Byte) (e : Entry) (s : State) : State :=
  setBinding ch (.opened (field b 8 4) 0) (s.withVersion b e)

theorem withVersion_holding (ch : Chan) (b a : List Byte) (e : Entry) (s : State) :
    (s.holding ch a).withVersion b e = (s.withVersion b e).holding ch a := rfl

theorem admitHead_some {s : State} {b : List Byte} {e : Entry} (ch : Chan) (j : Job) (he : s.entry? (field b 8 4) = some e) :
    admitHead ch b j s = s.admittedHead ch b e := by
  have hw : withEntry (field b 8 4) j.id s = s := by rw [withEntry, he]
  have hput : s.putEntry { e with incoming := some (headVersion b s.freeBlocks) } =
      setEntry { e with incoming := some (headVersion b s.freeBlocks) } s := by
    have hsome : (s.entry? e.key).isSome = true := by rw [entry?_self he]; rfl
    rw [State.putEntry, if_pos hsome]
    rfl
  unfold admitHead
  dsimp only
  rw [hw, he, State.admittedHead, State.withVersion, hput]
  rfl

theorem admitHead_none {s : State} {b : List Byte} (ch : Chan) (j : Job) (he : s.entry? (field b 8 4) = none) :
    admitHead ch b j s = s.admittedHead ch b (newEntry (field b 8 4) j.id) := by
  let e := newEntry (field b 8 4) j.id
  have hw : withEntry (field b 8 4) j.id s = { s with entries := s.entries ++ [e] } := by rw [withEntry, he]
  have hfound : State.entry? { s with entries := s.entries ++ [e] } (field b 8 4) = some e := by
    have := entry?_withEntry (field b 8 4) j.id s
    rwa [hw, he] at this
  have hput : s.putEntry { e with incoming := some (headVersion b s.freeBlocks) } =
      setEntry { e with incoming := some (headVersion b s.freeBlocks) } { s with entries := s.entries ++ [e] } := by
    have hnone : ¬ (s.entry? e.key).isSome = true := by
      show ¬ (s.entry? (field b 8 4)).isSome = true
      rw [he]
      decide
    rw [State.putEntry, if_neg hnone, setEntry]
    dsimp only
    rw [replaceFirst_append]
    · exact decide_eq_true rfl
    · exact he
  unfold admitHead
  dsimp only
  rw [hw, hfound, State.admittedHead, State.withVersion, hput]
  rfl

/-! ## The admission order (R44) -/

/-- What comes of a head: a refusal, a wait, or its admission into an entry. -/
inductive HeadOutcome where
  | refuse (reason : Reason)
  | wait (kind : Resource)
  | enter (e : Entry)

/-- The last step: the blocks. -/
def State.headRoom (s : State) (b : List Byte) (e : Entry) : HeadOutcome :=
  if s.freeCount < (field b 14 2 * field b 16 2 * 3 + 4095) / 4096 then .wait .blocks else .enter e

/-- The admission order on a state in which no record waits. -/
def State.headOutcome (s : State) (b : List Byte) : HeadOutcome :=
  match s.claim (field b 8 4) with
  | .error reason => .refuse reason
  | .ok j =>
    if ¬(16 ≤ field b 14 2 ∧ field b 14 2 ≤ 1024 ∧ 16 ≤ field b 16 2 ∧ field b 16 2 ≤ 1280) then .refuse .badSize
    else
      match s.entry? (field b 8 4) with
      | none => if 1024 ≤ s.entries.length then .wait .entry else s.headRoom b (newEntry (field b 8 4) j.id)
      | some e =>
        if e.incoming.isSome then .wait (.incomingRole (field b 8 4))
        else
          match e.current with
          | none => s.headRoom b e
          | some c =>
            if field b 12 2 ≤ c.number then .refuse .staleVersion
            else if 0 < c.pins ∧ e.retiring.isSome then .wait (.retiringRole (field b 8 4))
            else s.headRoom b e

/-- The verdict that an outcome is. -/
def HeadOutcome.verdict (ch : Chan) (b : List Byte) (s : State) : HeadOutcome → Verdict
  | .refuse reason => .refused reason []
  | .wait kind => .deferred kind
  | .enter e => .taken (s.admittedHead ch b e)

theorem sizeLegal_iff (w h : Nat) : sizeLegal w h = true ↔ 16 ≤ w ∧ w ≤ 1024 ∧ 16 ≤ h ∧ h ≤ 1280 := by
  simp only [sizeLegal, Bool.and_eq_true, decide_eq_true_eq, and_assoc]

section

variable {ch : Chan} {s : State} {b : List Byte}

theorem blocksStep_verdict (hold : ∀ k, s.olderWaiter ch k = false) {j : Job} {e : Entry}
    (ha : admitHead ch b j s = s.admittedHead ch b e) : blocksStep ch b j s = (s.headRoom b e).verdict ch b s := by
  have hres : reservation (field b 14 2) (field b 16 2) = (field b 14 2 * field b 16 2 * 3 + 4095) / 4096 := rfl
  rw [blocksStep, hold, Bool.or_false, ha, hres, State.headRoom]
  by_cases h : s.freeCount < (field b 14 2 * field b 16 2 * 3 + 4095) / 4096
  · rw [if_pos h, if_pos (decide_eq_true h)]
    rfl
  · rw [if_neg h, if_neg (by simpa using h)]
    rfl

/-- The owner's verdict on a head, where no older record waits (R44, R45). -/
theorem judgeHead_verdict (hold : ∀ k, s.olderWaiter ch k = false) :
    judgeHead ch b s = (s.headOutcome b).verdict ch b s := by
  unfold judgeHead State.headOutcome
  dsimp only
  cases s.claim (field b 8 4) with
  | error reason => rfl
  | ok j =>
    dsimp only
    by_cases hsize : sizeLegal (field b 14 2) (field b 16 2) = true
    · have hlegal := (sizeLegal_iff _ _).1 hsize
      rw [hsize, if_neg (not_not_intro hlegal)]
      cases he : s.entry? (field b 8 4) with
      | none =>
        have hshort : s.entryShort ch = decide (1024 ≤ s.entries.length) := by rw [State.entryShort, hold, Bool.or_false]
        dsimp only
        rw [hshort, blocksStep_verdict hold (admitHead_none ch j he)]
        by_cases hfull : 1024 ≤ s.entries.length
        · rw [if_pos hfull, decide_eq_true hfull]
          rfl
        · rw [if_neg hfull, decide_eq_false hfull]
          rfl
      | some e =>
        dsimp only
        rw [blocksStep_verdict hold (admitHead_some ch j he)]
        unfold roleStep
        simp only [hold, Bool.or_false]
        by_cases hin : e.incoming.isSome = true
        · rw [if_pos hin, if_pos hin]
          rfl
        · rw [if_neg hin, if_neg hin]
          cases e.current with
          | none => rfl
          | some c =>
            dsimp only
            by_cases hstale : field b 12 2 ≤ c.number
            · rw [if_pos hstale, if_pos hstale]
              rfl
            · rw [if_neg hstale, if_neg hstale]
              have hcond : (decide (0 < c.pins) && e.retiring.isSome) = true ↔ 0 < c.pins ∧ e.retiring.isSome = true := by
                rw [Bool.and_eq_true, decide_eq_true_eq]
              by_cases hret : 0 < c.pins ∧ e.retiring.isSome = true
              · rw [if_pos hret, if_pos (hcond.2 hret)]
                rfl
              · rw [if_neg hret, if_neg fun h => hret (hcond.1 h)]
                rfl
    · have hlegal : ¬ _ := fun h => hsize ((sizeLegal_iff _ _).2 h)
      rw [Bool.not_eq_true] at hsize
      rw [hsize, if_pos hlegal]
      rfl

/-- The state that an outcome leaves. -/
def HeadOutcome.result (ch : Chan) (b : List Byte) (s : State) : HeadOutcome → State
  | .refuse reason => (setBinding ch (.skipping (field b 8 4)) (s.refusedOn ch (recTag b) (field b 8 4) 16 reason [])).rested
  | .wait kind => (s.deferredOn ch b kind).rested
  | .enter e => (judgeStore (recTag b) ((s.admittedHead ch b e).counted ch)).rested

/-- The state that a head leaves. -/
def State.headResult (ch : Chan) (b : List Byte) (s : State) : State := (s.headOutcome b).result ch b s

theorem rested_setBinding (ch : Chan) (bd : Binding) (s : State) : (setBinding ch bd s).rested = setBinding ch bd s.rested := rfl

theorem headResult_rested {t : State} (e : s.rested = t.rested) : s.headResult ch b = t.headResult ch b := by
  have key : ∀ s : State, s.rested.headResult ch b = s.headResult ch b := by
    intro s
    have ho : s.rested.headOutcome b = s.headOutcome b := rfl
    unfold State.headResult
    rw [ho]
    cases s.headOutcome b with
    | refuse reason =>
      have := forgets_rested.notify (s := modChan ch (fun c => { c with refused := bump c.refused }) s.rested)
        (t := modChan ch (fun c => { c with refused := bump c.refused }) s) .refused (recTag b) (field b 8 4)
        ([.two ch, .two 16, .two reason.code] ++ []) rfl
      exact congrArg (setBinding ch (.skipping (field b 8 4))) this
    | wait kind => rfl
    | enter e => exact judgeStore_rested _ rfl
  rw [← key s, e, key t]

/-- A head that is judged on the state `w` (R9, R11, R44). -/
theorem deliver_head {w : State} (hq : Listening ch s) (hb : IsRecord b) (hk : decoderCheck b = .ok .portraitHead)
    (h : Judging ch w)
    (hp : presentRecord ch b (s.holding ch b) = conclude ch b (judgeHead ch b (w.holding ch b)) (w.holding ch b)) :
    deliver ch b s = w.headResult ch b := by
  have hold : ∀ k, (w.holding ch b).olderWaiter ch k = false := olderWaiter_none h.noWaiters
  have ho : (w.holding ch b).headOutcome b = w.headOutcome b := rfl
  obtain ⟨hkind, -, hlen⟩ := decoderCheck_ok hk
  have hkey : recKey? b = some (field b 8 4) := if_pos (Nat.le_trans (by decide) hlen)
  rw [judgeHead_verdict hold, ho] at hp
  unfold State.headResult
  cases hout : w.headOutcome b with
  | refuse reason =>
    have hsub : recSubject b = field b 8 4 := by
      rw [recSubject, hkind]
      show (recKey? b).getD 0 = _
      rw [hkey]
      rfl
    rw [hout] at hp
    have hcode : recKindCode b = 16 := ofCode_some hkind
    rw [deliver_refusedHead hq hb h hkind hkey hp, hsub, hcode]
    rfl
  | wait kind =>
    rw [hout] at hp
    refine deliver_deferredFrom hq hb h hp ?_
    have hagain : ∀ k, (w.deferredOn ch b kind).rested.olderWaiter ch k = false := by
      intro k
      have hwait : (w.deferredOn ch b kind).rested.waiting = [{ ch := ch, kind := kind, start := w.now }] :=
        deferredOn_waiting (b := b) h
      rw [State.olderWaiter, hwait]
      simp
    have houtcome : (w.deferredOn ch b kind).rested.headOutcome b = w.headOutcome b := rfl
    rw [judgeRecord, hk]
    show judgeHead ch b _ = _
    rw [judgeHead_verdict hagain, houtcome, hout]
    rfl
  | enter e =>
    rw [hout] at hp
    have hchan : ∀ c, c ≠ ch → (w.admittedHead ch b e).chans[c] = w.chans[c] := fun c hc => modChan_other _ _ hc
    have hself : (w.admittedHead ch b e).chans[ch] = { w.chans[ch] with binding := .opened (field b 8 4) 0 } :=
      modChan_self ..
    have hholding : (w.holding ch b).admittedHead ch b e = (w.admittedHead ch b e).holding ch b := by
      rw [State.admittedHead, withVersion_holding, setBinding_holding, State.admittedHead]
    refine deliver_takenOn hq hb (hp.trans (congrArg (fun t => conclude ch b (.taken t) _) hholding)) (Nat.le_refl _) ?_ h.noWaiters
      (fun c hc => ?_) h.steady
    · refine ⟨?_, ?_, ?_⟩ <;> rw [hself]
      · exact h.vacant.empty
      · exact h.vacant.ready
      · exact h.vacant.mark
    · rw [← h.others c hc]
      exact presents_same (by rw [hchan c hc]) (by rw [hchan c hc]) rfl

end

/-! ## The open portrait that a head ends (R43, R53, R55) -/

/-- The filling version of the key that a channel holds open fails with STRIP-ORDER, and its binding becomes NONE. -/
theorem failOpen_holding {ch : Chan} {s : State} {b : List Byte} {key tag : Nat} {e : Entry} {v : Version}
    (he : s.entry? key = some e) (hv : e.incoming.filter Version.filling = some v) :
    failOpen ch key tag 0 .unbound (s.holding ch b) =
      (setBinding ch .unbound (failPortrait key .stripOrder tag [.two v.lines, .two 0] s)).holding ch b := by
  have hlines : (((s.holding ch b).fillingVersion key).map (·.lines)).getD 0 = v.lines := by
    have hf : (s.holding ch b).fillingVersion key = some v := by
      show s.fillingVersion key = some v
      rw [State.fillingVersion, he]
      exact hv
    rw [hf]
    rfl
  rw [failOpen, hlines, ← setBinding_holding, State.holding, failPortrait_modChan]
  rfl

/-- The state that a head judges after the failure of the portrait that was open on its channel. -/
def State.brokenOff (ch : Chan) (key tag lines : Nat) (s : State) : State :=
  judgeStore tag (setBinding ch .unbound (failPortrait key .stripOrder tag [.two lines, .two 0] s))

theorem brokenOff_other {ch c : Chan} (hc : c ≠ ch) (key tag lines : Nat) (s : State) :
    (s.brokenOff ch key tag lines).chans[c] = s.chans[c] := by
  rw [State.brokenOff, judgeStore_chans, setBinding, modChan_other _ _ hc, failPortrait_chans]

theorem brokenOff_self (ch : Chan) (key tag lines : Nat) (s : State) :
    (s.brokenOff ch key tag lines).chans[ch] = { s.chans[ch] with binding := .unbound } := by
  rw [State.brokenOff, judgeStore_chans, setBinding, modChan_self, failPortrait_chans]

theorem brokenOff_waiting (ch : Chan) (key tag lines : Nat) (s : State) :
    (s.brokenOff ch key tag lines).waiting = s.waiting := by
  rw [State.brokenOff, judgeStore_waiting, setBinding_waiting]
  exact (failPortrait_sameLink ..).2

theorem brokenOff_judging {ch : Chan} {s : State} (hq : Listening ch s) {key : Nat} {e : Entry} {v : Version}
    (he : s.entry? key = some e) (hv : e.incoming.filter Version.filling = some v) (hmark : s.lowMark ≤ Config.blockCount)
    (tag lines : Nat) : Judging ch (s.brokenOff ch key tag lines) where
  vacant := by
    have self := brokenOff_self ch key tag lines s
    exact ⟨by rw [self]; exact hq.empty, by rw [self]; exact hq.ready, by rw [self]; exact hq.mark⟩
  noWaiters := (brokenOff_waiting ..).trans hq.noWaiters
  others c hc := by
    rw [← hq.still c]
    have other := brokenOff_other hc key tag lines s
    exact presents_same (by rw [other]) (by rw [other]) (brokenOff_waiting ..)
  steady := steady_judgeStore tag (steady_failPortrait key _ tag _ hq.steady)
  judged := by
    refine storeJudged_judgeStore tag ?_
    rw [setBinding_lowMark, failPortrait_filling _ _ _ he hv, notify_lowMark]
    exact hmark

theorem presentRecord_head {ch : Chan} {s : State} (hq : Quiet ch s) {b : List Byte}
    (hk : decoderCheck b = .ok .portraitHead) : presentRecord ch b (s.holding ch b) =
      conclude ch b (judgeHead ch b (endOpenPortrait ch b (s.holding ch b))) (endOpenPortrait ch b (s.holding ch b)) :=
  presentRecord_ok (fun key => by rw [holding_self]; exact hq.noSkip key) hk

theorem deliver_headUnbound {ch : Chan} {s : State} (hq : Quiet ch s) {b : List Byte} (hb : IsRecord b)
    (hk : decoderCheck b = .ok .portraitHead) (hu : s.chans[ch].binding = .unbound) :
    deliver ch b s = s.headResult ch b := by
  have hend : endOpenPortrait ch b (s.holding ch b) = s.holding ch b := by
    have : (s.holding ch b).chans[ch].binding = .unbound := by rw [holding_self]; exact hu
    rw [endOpenPortrait, this]
  refine deliver_head hq.toListening hb hk hq.judging ?_
  rw [presentRecord_head hq hk, hend]

theorem deliver_headOpened {ch : Chan} {s : State} (hq : Quiet ch s) {b : List Byte} (hb : IsRecord b)
    (hk : decoderCheck b = .ok .portraitHead) {key n : Nat} (hopen : s.chans[ch].binding = .opened key n) {e : Entry}
    {v : Version} (he : s.entry? key = some e) (hv : e.incoming.filter Version.filling = some v)
    (hmark : s.lowMark ≤ Config.blockCount) :
    deliver ch b s = (s.brokenOff ch key (recTag b) v.lines).headResult ch b := by
  have hend : endOpenPortrait ch b (s.holding ch b) = (s.brokenOff ch key (recTag b) v.lines).holding ch b := by
    have : (s.holding ch b).chans[ch].binding = .opened key n := by rw [holding_self]; exact hopen
    have hsteady : Steady ((s.brokenOff ch key (recTag b) v.lines).holding ch b) :=
      steady_judgeStore _ (steady_failPortrait key _ _ _ hq.steady)
    rw [endOpenPortrait, this]
    dsimp only
    rw [failOpen_holding he hv, State.holding, judgeStore_modChan]
    exact pump_steady hsteady
  refine deliver_head hq.toListening hb hk (brokenOff_judging hq.toListening he hv hmark _ _) ?_
  rw [presentRecord_head hq hk, hend]

/-- Settles O14: the outcome of the admission order, on the state as it stands or as the end of the open portrait leaves it. -/
theorem portraitHead : Obligations.PortraitHead := by
  intro ch tag key version width height faceX faceY faceW faceH fixedGain s hq hw
  have hexec := exec_wireRecord (c := .portraitHead ch tag key version width height faceX faceY faceW faceH fixedGain) hq.up rfl
  have r := carriedRecord (c := .portraitHead ch tag key version width height faceX faceY faceW faceH fixedGain) hw rfl rfl rfl
  generalize hb : portraitHeadRecord tag key version width height faceX faceY faceW faceH fixedGain = b at hexec r ⊢
  have htag : recTag b = tag := r.reads.tag
  have hkey : field b 8 4 = key := r.reads.fields (8, 4, key) (by simp)
  have hversion : field b 12 2 = version := r.reads.fields (12, 2, version) (by simp)
  have hwidth : field b 14 2 = width := r.reads.fields (14, 2, width) (by simp)
  have hheight : field b 16 2 = height := r.reads.fields (16, 2, height) (by simp)
  have hfx : field b 18 2 = faceX := r.reads.fields (18, 2, faceX) (by simp)
  have hfy : field b 20 2 = faceY := r.reads.fields (20, 2, faceY) (by simp)
  have hfw : field b 22 2 = faceW := r.reads.fields (22, 2, faceW) (by simp)
  have hfh : field b 24 2 = faceH := r.reads.fields (24, 2, faceH) (by simp)
  have hgain : field b 26 2 = fixedGain := r.reads.fields (26, 2, fixedGain) (by simp)
  intro refused waits need admitted judged
  have hrefused : ∀ u reason, (HeadOutcome.refuse reason).result ch b u = refused u reason := by
    intro u reason
    rw [HeadOutcome.result, hkey, htag]
  have hroom : ∀ u e, (u.headRoom b e).result ch b u = admitted u e := by
    intro u e
    rw [State.headRoom, hwidth, hheight]
    by_cases h : u.freeCount < (width * height * 3 + 4095) / 4096
    · rw [if_pos h]
      exact (if_pos h).symm
    · rw [if_neg h]
      refine Eq.trans ?_ (if_neg h).symm
      rw [HeadOutcome.result, State.admittedHead, State.withVersion, headVersion, admittedVersion, htag, hkey, hversion, hwidth,
        hheight, hfx, hfy, hfw, hfh, hgain]
      rfl
  have hjudged : ∀ u, u.headResult ch b = judged u := by
    intro u
    rw [State.headResult, State.headOutcome, hkey, hversion, hwidth, hheight]
    dsimp only [judged]
    cases u.claim key with
    | error reason => exact hrefused u reason
    | ok j =>
      dsimp only
      split
      · exact hrefused u .badSize
      · cases u.entry? key with
        | none =>
          dsimp only
          split
          · rfl
          · exact hroom u _
        | some e =>
          dsimp only
          split
          · rfl
          · cases e.current with
            | none => exact hroom u e
            | some c =>
              dsimp only
              split
              · exact hrefused u .staleVersion
              · split
                · rfl
                · exact hroom u e
  refine ⟨fun hu => ?_, fun k n e v win hopen he hin hfill hmark => ?_⟩
  · rw [hexec, deliver_headUnbound (quiet_cleared hq) r.whole r.checked hu, hjudged]
  · have hv : e.incoming.filter Version.filling = some v := by
      rw [hin, Option.filter_some, Version.filling, hfill]
      rfl
    rw [hexec, deliver_headOpened (quiet_cleared hq) r.whole r.checked hopen he hv hmark, htag, ← hjudged]
    refine congrArg Host.Outcome.next (headResult_rested (judgeStore_rested tag ?_))
    rw [failPortrait_filling (s := s.cleared) _ _ _ he hv]
    rw [rested_setBinding, rested_setBinding]
    exact congrArg (setBinding ch .unbound) (forgets_rested.notify _ _ _ _ rfl)

end Sys2Proof.Machine
end

section
/-! PROOF. The job table and the directory stay legal: each move keeps them (2.1, 2.3, R22, R29, R31, R70). -/

namespace Sys2Proof.Machine

/-! ## Lists of which the first member that meets a test is replaced or removed -/

theorem removeFirst_sublist {α : Type} (p : α → Bool) (l : List α) : (removeFirst p l).Sublist l := by
  induction l with
  | nil => exact .refl _
  | cons a rest ih =>
    unfold removeFirst
    split
    · exact List.sublist_cons_self _ _
    · exact ih.cons_cons a

theorem map_replaceFirst {α β : Type} (p : α → Bool) (f : α → β) {x y : α} {l : List α} (hy : l.find? p = some y)
    (hf : f x = f y) : (replaceFirst p x l).map f = l.map f := by
  induction l with
  | nil => rfl
  | cons a rest ih =>
    unfold replaceFirst
    split
    · rename_i ha
      rw [List.find?_cons_of_pos ha, Option.some.injEq] at hy
      rw [List.map_cons, List.map_cons, hf, hy]
    · rename_i ha
      rw [List.find?_cons_of_neg ha] at hy
      rw [List.map_cons, List.map_cons, ih hy]

theorem mem_replaceFirst {α : Type} {p : α → Bool} {x a : α} {l : List α} (h : a ∈ replaceFirst p x l) : a = x ∨ a ∈ l := by
  induction l with
  | nil => cases h
  | cons b rest ih =>
    unfold replaceFirst at h
    split at h
    · exact (List.mem_cons.1 h).imp_right (List.mem_cons_of_mem b)
    · rcases List.mem_cons.1 h with rfl | h
      · exact .inr List.mem_cons_self
      · exact (ih h).imp_right (List.mem_cons_of_mem b)

/-- A new member joins a list of distinct keys that holds none of its key. -/
theorem nodup_map_concat {α β : Type} [DecidableEq β] {f : α → β} {l : List α} {x : α} (hl : (l.map f).Nodup)
    (hx : l.find? (fun a => f a = f x) = none) : ((l ++ [x]).map f).Nodup := by
  rw [List.find?_eq_none] at hx
  rw [List.map_append, List.map_singleton, ← List.concat_eq_append]
  refine hl.concat fun hm => ?_
  obtain ⟨a, ha, e⟩ := List.mem_map.1 hm
  exact hx a ha (decide_eq_true e)

/-! ## The job table (2.1, R22) -/

/-- What of a job its life does not change: all but its state and its count of live pages. -/
def Job.fixed (j : Job) : Job := { j with state := .opened, livePages := 0 }

/-- Where no job is new and every job keeps its id, window and target, the job table stays legal. -/
theorem JobsLegal.of_sublist {s t : State} (h : JobsLegal s) (hl : (t.jobs.map Job.fixed).Sublist (s.jobs.map Job.fixed)) :
    JobsLegal t where
  slots := by
    have := hl.length_le
    rw [List.length_map, List.length_map] at this
    exact this.trans h.slots
  ids := by
    have := hl.map Job.id
    rw [List.map_map, List.map_map] at this
    exact h.ids.sublist this
  windows := by
    let apart : Job → Job → Prop := fun a b => a.overlaps b.base b.limit = false
    have hs : (s.jobs.map Job.fixed).Pairwise apart := List.pairwise_map.2 h.windows
    exact List.pairwise_map.1 (hs.sublist hl)
  fields := by
    intro j hj
    obtain ⟨k, hk, e⟩ := List.mem_map.1 (hl.subset (List.mem_map_of_mem hj))
    obtain ⟨hid, hbase, hlimit, htarget, -⟩ := Job.mk.inj e
    rw [← hid, ← hbase, ← hlimit, ← htarget]
    exact h.fields k hk

/-- A job whose id and window are free is opened in a free slot (R22). -/
theorem JobsLegal.concat {s : State} (h : JobsLegal s) {j : Job} (hs : s.jobs.length < Config.jobSlots)
    (hid : s.job? j.id = none) (ho : s.jobs.any (·.overlaps j.base j.limit) = false)
    (hf : 1 ≤ j.id ∧ 1 ≤ j.base ∧ j.base ≤ j.limit ∧
      (j.target = 0 ∨ (Config.targetMin ≤ j.target ∧ j.target ≤ Config.targetMax))) :
    JobsLegal { s with jobs := s.jobs ++ [j] } where
  slots := by rw [List.length_append]; exact hs
  ids := nodup_map_concat h.ids hid
  windows := by
    rw [List.pairwise_append]
    refine ⟨h.windows, List.pairwise_singleton _ _, fun a ha b hb => ?_⟩
    obtain rfl := List.mem_singleton.1 hb
    simpa using List.any_eq_false.1 ho a ha
  fields := by
    intro k hk
    rcases List.mem_append.1 hk with hk | hk
    · exact h.fields k hk
    · obtain rfl := List.mem_singleton.1 hk
      exact hf

theorem Move.keeps_jobs {lim : Nat} {s t : State} (m : Move lim s t) (h : JobsLegal s) : JobsLegal t := by
  have empty : ∀ u : State, u.jobs = [] → JobsLegal u := fun u hu => h.of_sublist (by rw [hu]; exact List.nil_sublist _)
  cases m
  case openJob j hs hid ho hf => exact h.concat hs hid ho hf
  case job j j' hj hfix =>
    obtain ⟨hid, hbase, hlimit, htarget⟩ := hfix
    have hsame : j'.fixed = j.fixed := by simp only [Job.fixed, hid, hbase, hlimit, htarget]
    refine h.of_sublist ?_
    dsimp only
    rw [hid, map_replaceFirst _ _ hj hsame]
  case closeJob j free hb => exact h.of_sublist ((removeFirst_sublist _ _).map _)
  case emptyTables => exact empty _ rfl
  case masterReset => exact empty _ rfl
  all_goals exact ⟨h.slots, h.ids, h.windows, h.fields⟩

/-- Settles O55: the moves of a step keep the job table legal. -/
theorem stepKeepsJobs : Obligations.StepKeepsJobs := by
  intro s t hs h
  obtain ⟨lim, hl⟩ := exists_frameWithin s.pending
  exact (step_moves s t hl h).keeps (fun _ _ m => m.keeps_jobs) hs

/-! ## The directory (2.3, R29, R31, R70) -/

/-- The directory and the gains of its complete versions are legal. -/
structure DirectoryLegal (s : State) : Prop where
  entries : EntriesLegal s
  gains : GainsLegal s

theorem cleanName_clean (limit : Nat) (raw : List Byte) : Clean limit (cleanName limit raw).1 := by
  refine ⟨?_, fun c hc => ?_⟩
  · show ((raw.take limit).map _).length ≤ limit
    rw [List.length_map, List.length_take]
    exact Nat.min_le_left _ _
  · obtain ⟨a, -, rfl⟩ := List.mem_map.1 hc
    split
    · rename_i ha
      simpa using ha
    · decide

theorem nameOf_clean {limit : Nat} {raw name : List Byte} (h : nameOf (cleanName limit raw).1 = some name) :
    Clean limit name := by
  unfold nameOf at h
  split at h
  · cases h
  · cases h
    exact cleanName_clean limit raw

/-- Where no entry is new and none changes, the directory stays legal. -/
theorem DirectoryLegal.of_sublist {s t : State} (h : DirectoryLegal s) (hl : t.entries.Sublist s.entries) : DirectoryLegal t :=
  ⟨⟨hl.length_le.trans h.entries.slots, h.entries.keys.sublist (hl.map _), fun e he => h.entries.names e (hl.subset he)⟩,
    fun e he => h.gains e (hl.subset he)⟩

/-- An entry is made for a key that has none, where one is unused (R29). -/
theorem DirectoryLegal.newEntry {s : State} (h : DirectoryLegal s) {key : Nat} (jobId : Nat) (hk : s.entry? key = none)
    (hs : s.entries.length < Config.directorySize) :
    DirectoryLegal { s with entries := s.entries ++ [newEntry key jobId] } := by
  refine ⟨⟨by rw [List.length_append]; exact hs, nodup_map_concat h.entries.keys hk, fun e he => ?_⟩, fun e he => ?_⟩
  · rcases List.mem_append.1 he with he | he
    · exact h.entries.names e he
    · obtain rfl := List.mem_singleton.1 he
      exact nofun
  · rcases List.mem_append.1 he with he | he
    · exact h.gains e he
    · obtain rfl := List.mem_singleton.1 he
      exact nofun

/-- An entry that stands takes a cleaned name, and versions that it held or whose gains are in range (R31, R70). -/
theorem DirectoryLegal.setEntry {s t : State} (h : DirectoryLegal s) {e e' : Entry} (he : s.entry? e.key = some e)
    (hstep : EntryStep e e') (ht : t.entries = replaceFirst (·.key = e'.key) e' s.entries) : DirectoryLegal t := by
  have hmem : e ∈ s.entries := List.mem_of_find?_eq_some he
  have hkeys : t.entries.map (·.key) = s.entries.map (·.key) := by
    rw [ht, hstep.key]
    exact map_replaceFirst _ _ he hstep.key
  refine ⟨⟨?_, hkeys ▸ h.entries.keys, fun a ha name hn => ?_⟩, fun a ha v hv => ?_⟩
  · rw [← List.length_map (f := (·.key)), hkeys, List.length_map]
    exact h.entries.slots
  · rw [ht] at ha
    rcases mem_replaceFirst ha with rfl | ha
    · rcases hstep.name with hsame | ⟨raw, hraw⟩
      · exact h.entries.names e hmem name (hsame ▸ hn)
      · exact nameOf_clean (hraw ▸ hn)
    · exact h.entries.names a ha name hn
  · rw [ht] at ha
    rcases mem_replaceFirst ha with rfl | ha
    · rcases hstep.versions v hv with hlegal | ⟨u, hu, hsame⟩
      · exact hlegal
      · intro mean gain tag hc
        exact h.gains e hmem u hu mean gain tag (hsame ▸ hc)
    · exact h.gains a ha v hv

theorem Move.keeps_directory {lim : Nat} {s t : State} (m : Move lim s t) (h : DirectoryLegal s) : DirectoryLegal t := by
  have empty : ∀ u : State, u.entries = [] → DirectoryLegal u := fun u hu =>
    h.of_sublist (by rw [hu]; exact List.nil_sublist _)
  cases m
  case closeJob j free hb => exact h.of_sublist List.filter_sublist
  case newEntry key jobId hk hs => exact h.newEntry jobId hk hs
  case entry e e' free he hstep hb => exact h.setEntry he hstep rfl
  case emptyTables => exact empty _ rfl
  case masterReset => exact empty _ rfl
  all_goals exact h.of_sublist (.refl _)

/-- Settles O56: the moves of a step keep the directory and the gains legal. -/
theorem stepKeepsDirectory : Obligations.StepKeepsDirectory := by
  intro s t hentries hgains h
  obtain ⟨lim, hl⟩ := exists_frameWithin s.pending
  obtain ⟨he, hg⟩ := (step_moves s t hl h).keeps (fun _ _ m => m.keeps_directory) (DirectoryLegal.mk hentries hgains)
  exact ⟨he, hg⟩

end Sys2Proof.Machine
end

section
/-! PROOF. A completed job (R28), and ROSTER (R24, R29 to R31). -/

namespace Sys2Proof.Machine

/-! ## What the notice unit, the directory and the block pool leave -/

/-- Two states with the same jobs, pages, tables, band area and store low state: they may differ in the channels, the
directory, the block pool and the notice unit. -/
structure SameShop (s t : State) : Prop where
  jobs : t.jobs = s.jobs
  storeLow : t.storeLow = s.storeLow
  lowMark : t.lowMark = s.lowMark
  store : t.store = s.store
  templates : t.templates = s.templates
  fonts : t.fonts = s.fonts
  pages : t.pages = s.pages
  compositor : t.compositor = s.compositor
  freeBuffers : t.freeBuffers = s.freeBuffers
  offer : t.offer = s.offer

theorem SameShop.rfl' (s : State) : SameShop s s := ⟨rfl, rfl, rfl, rfl, rfl, rfl, rfl, rfl, rfl, rfl⟩

theorem SameShop.trans {s t u : State} (h : SameShop s t) (k : SameShop t u) : SameShop s u :=
  ⟨k.jobs.trans h.jobs, k.storeLow.trans h.storeLow, k.lowMark.trans h.lowMark, k.store.trans h.store,
    k.templates.trans h.templates, k.fonts.trans h.fonts, k.pages.trans h.pages, k.compositor.trans h.compositor,
    k.freeBuffers.trans h.freeBuffers, k.offer.trans h.offer⟩

theorem notify_sameShop (code : NoticeCode) (tag subject : Nat) (detail : List Item) (s : State) :
    SameShop s (notify code tag subject detail s) :=
  ⟨notify_jobs .., notify_storeLow .., notify_lowMark .., notify_store .., notify_templates .., notify_fonts ..,
    notify_pages .., notify_compositor .., notify_freeBuffers .., notify_offer ..⟩

theorem setEntry_sameShop (e : Entry) (s : State) : SameShop s (setEntry e s) :=
  ⟨rfl, rfl, rfl, rfl, rfl, rfl, rfl, rfl, rfl, rfl⟩

theorem putEntry_sameShop (e : Entry) (s : State) : SameShop s (s.putEntry e) :=
  ⟨rfl, rfl, rfl, rfl, rfl, rfl, rfl, rfl, rfl, rfl⟩

theorem returnBlocks_sameShop (runs : List Run) (s : State) : SameShop s (returnBlocks runs s) :=
  ⟨rfl, rfl, rfl, rfl, rfl, rfl, rfl, rfl, rfl, rfl⟩

theorem setBinding_sameShop (ch : Chan) (bd : Binding) (s : State) : SameShop s (setBinding ch bd s) :=
  ⟨rfl, rfl, rfl, rfl, rfl, rfl, rfl, rfl, rfl, rfl⟩

theorem failPortrait_sameShop (key : Nat) (reason : FailReason) (tag : Nat) (extra : List Item) (s : State) :
    SameShop s (failPortrait key reason tag extra s) := by
  unfold failPortrait
  split
  · exact .rfl' s
  · split
    · exact .rfl' s
    · exact ((setEntry_sameShop _ s).trans (returnBlocks_sameShop ..)).trans (notify_sameShop ..)

theorem foldl_sameShop {α : Type} (f : State → α → State) (h : ∀ s a, SameShop s (f s a)) (l : List α) (s : State) :
    SameShop s (l.foldl f s) := by
  induction l generalizing s with
  | nil => exact .rfl' s
  | cons a rest ih => exact (h s a).trans (ih _)

theorem SameShop.steady {s t : State} (h : SameShop s t) (hs : Steady s) : Steady t :=
  steady_of hs h.pages h.compositor h.offer

/-! ## The completion of a job (R28) -/

theorem runCount_foldl_joinRuns (blocks : List (List Run)) (free : List Run) :
    runCount (blocks.foldl joinRuns free) = runCount free + (blocks.map runCount).sum := by
  induction blocks generalizing free with
  | nil => rfl
  | cons b rest ih =>
    rw [List.foldl_cons, ih, runCount_joinRuns, List.map_cons, List.sum_cons, Nat.add_assoc]

theorem wakeUp_foldl_returnBlocks (blocks : List (List Run)) (s : State) :
    wakeUp (blocks.foldl (fun s runs => returnBlocks runs s) s) =
      { s with freeBlocks := blocks.foldl joinRuns s.freeBlocks, wake := true } := by
  induction blocks generalizing s with
  | nil => rfl
  | cons b rest ih =>
    rw [List.foldl_cons, ih]
    rfl

/-- The entries of a job's window. -/
def State.window (j : Job) (s : State) : List Entry := s.entries.filter fun e => j.holds e.key

/-- The state with a job's window emptied, its entries' blocks returned and its slot freed (R28). -/
def State.jobEmptied (j : Job) (s : State) : State :=
  { s with
    entries := s.entries.filter fun e => !j.holds e.key
    jobs := removeFirst (·.id = j.id) s.jobs
    freeBlocks := ((s.window j).flatMap Entry.blocks).foldl joinRuns s.freeBlocks
    wake := true }

theorem completeJob_completes {j : Job} {tag : Nat} (hclosing : j.state = .closing tag) (hlive : j.livePages = 0) (s : State) :
    completeJob j s =
      notify .jobClosed tag j.id [.two (s.window j).length, .four ((s.window j).map Entry.held).sum] (s.jobEmptied j) := by
  have hwindow : (s.entries.filter fun e => j.holds e.key) = s.window j := rfl
  unfold completeJob
  rw [hclosing]
  dsimp only
  rw [if_pos hlive, hwindow, wakeUp_foldl_returnBlocks, flatMap_blocks_count]
  rfl

theorem completeJob_opened {j : Job} (h : j.state = .opened) (s : State) : completeJob j s = s := by
  unfold completeJob
  rw [h]

theorem completeJob_live {j : Job} (h : j.livePages ≠ 0) (s : State) : completeJob j s = s := by
  unfold completeJob
  split
  · rfl
  · exact if_neg h

/-- The completion of a job leaves the state, or empties the job's window and posts JOB-CLOSED (R28). -/
theorem completeJob_cases (j : Job) :
    (∀ s, completeJob j s = s) ∨ ∃ tag, j.state = .closing tag ∧ j.livePages = 0 := by
  cases hstate : j.state with
  | opened => exact .inl (completeJob_opened hstate)
  | closing tag =>
    by_cases hlive : j.livePages = 0
    · exact .inr ⟨tag, rfl, hlive⟩
    · exact .inl (completeJob_live hlive)

/-- Settles O12: the entries of the window leave with their blocks, and then JOB-CLOSED is posted. -/
theorem jobCompletes : Obligations.JobCompletes := by
  intro j tag s hclosing hlive gone t
  have ht : t = notify .jobClosed tag j.id [.two gone.length, .four (gone.map Entry.held).sum] (s.jobEmptied j) :=
    completeJob_completes hclosing hlive s
  have hfree : t.freeCount = s.freeCount + (gone.map Entry.held).sum := by
    rw [ht, State.freeCount, notify_freeBlocks, ← flatMap_blocks_count]
    exact runCount_foldl_joinRuns ..
  refine ⟨?_, ?_, hfree, ⟨s.jobEmptied j, rfl, rfl, rfl, rfl, ht⟩, ?_⟩
  · rw [ht, notify_entries]
    rfl
  · rw [ht, notify_jobs]
    rfl
  · simp only [ht, notify_chans, notify_waiting, notify_pages, notify_templates, notify_store, notify_fonts,
      notify_freeBuffers, notify_compositor, State.jobEmptied, and_self]

/-! ## ROSTER (R24, R29, R30, R31) -/

/-- The entry of a key as a ROSTER leaves it (R30). -/
def State.rosterEntry (s : State) (key jobId publication : Nat) (name : List Byte) : Entry :=
  { (s.entry? key).getD (newEntry key jobId) with
    name := nameOf (cleanName Config.nameLength name).1
    withholdPhoto := bit publication 0, withholdName := bit publication 1
    nameAltered := (cleanName Config.nameLength name).2 }

/-- The state in which a ROSTER has been taken (R30). -/
def State.rostered (tag key jobId publication : Nat) (name : List Byte) (s : State) : State :=
  let e := s.rosterEntry key jobId publication name
  let t := notify .rosterTaken tag key [.two e.photoState.code] (s.putEntry e)
  if (cleanName Config.nameLength name).2 then notify .nameAltered tag key [] t else t

/-- An entry of a key, made if need be, that then changes takes its place in the directory. -/
theorem setEntry_withEntry {e : Entry} {key : Nat} (hk : e.key = key) (jobId : Nat) (s : State) :
    setEntry e (withEntry key jobId s) = s.putEntry e := by
  subst hk
  unfold withEntry State.putEntry setEntry
  cases he : s.entry? e.key with
  | some x => rfl
  | none =>
    dsimp only
    have h := replaceFirst_append (p := fun x : Entry => x.key = e.key) e (newEntry e.key jobId) (decide_eq_true rfl) _ he
    rw [h]
    rfl

theorem getD_entry?_key (key jobId : Nat) (s : State) : ((s.entry? key).getD (newEntry key jobId)).key = key := by
  cases he : s.entry? key with
  | some e => exact entry?_key he
  | none => rfl

theorem takeRoster_withEntry (key tag jobId publication : Nat) (name : List Byte) (s : State) :
    takeRoster key tag publication name (withEntry key jobId s) = s.rostered tag key jobId publication name := by
  have hk : (s.rosterEntry key jobId publication name).key = key := getD_entry?_key key jobId s
  unfold takeRoster State.rostered
  rw [entry?_withEntry]
  dsimp only
  rw [← setEntry_withEntry hk jobId s]
  rfl

theorem judgeRoster_of_fields {ch : Chan} {b name : List Byte} {s : State} {key publication : Nat} (hkey : field b 8 4 = key)
    (hp : field b 12 1 = publication) (hlen : b.length = 16 + field b 13 1) (hn : b.drop 16 = name) (hw : s.waiting = []) :
    judgeRoster ch b s =
      if 4 ≤ publication then .refused .badField []
      else
        match s.claim key with
        | .error r => .refused r []
        | .ok j =>
          if s.entry? key = none ∧ 1024 ≤ s.entries.length then .deferred .entry
          else .taken (s.rostered (recTag b) key j.id publication name) := by
  subst hkey hp hn
  have hshort : ((s.entry? (field b 8 4)).isNone && s.entryShort ch) =
      decide (s.entry? (field b 8 4) = none ∧ 1024 ≤ s.entries.length) := by
    rw [State.entryShort, olderWaiter_none hw, Bool.or_false, Bool.decide_and]
    cases s.entry? (field b 8 4) <;> rfl
  unfold judgeRoster
  dsimp only
  rw [if_neg (not_not_intro hlen)]
  split
  · rfl
  · cases s.claim (field b 8 4) with
    | error r => rfl
    | ok j => simp only [takeRoster_withEntry, hshort, decide_eq_true_eq]

theorem rostered_holding (tag key jobId publication : Nat) (name : List Byte) (ch : Chan) (b : List Byte) (s : State) :
    (s.holding ch b).rostered tag key jobId publication name = (s.rostered tag key jobId publication name).holding ch b := by
  have hput : ∀ e, (s.holding ch b).putEntry e = (s.putEntry e).holding ch b := fun _ => rfl
  have hentry : (s.holding ch b).rosterEntry key jobId publication name = s.rosterEntry key jobId publication name := rfl
  unfold State.rostered
  dsimp only
  rw [hentry, hput, State.holding, notify_modChan]
  split
  · exact notify_modChan ..
  · rfl

theorem rostered_sameShop (tag key jobId publication : Nat) (name : List Byte) (s : State) :
    SameShop s (s.rostered tag key jobId publication name) := by
  unfold State.rostered
  dsimp only
  split
  · exact ((putEntry_sameShop _ s).trans (notify_sameShop ..)).trans (notify_sameShop ..)
  · exact (putEntry_sameShop _ s).trans (notify_sameShop ..)

theorem rostered_sameLink (tag key jobId publication : Nat) (name : List Byte) (s : State) :
    SameLink s (s.rostered tag key jobId publication name) := by
  have hput : ∀ e, SameLink s (s.putEntry e) := fun e => ⟨rfl, rfl⟩
  unfold State.rostered
  dsimp only
  split
  · exact ((hput _).trans (notify_sameLink ..)).trans (notify_sameLink ..)
  · exact (hput _).trans (notify_sameLink ..)

theorem rostered_freeBlocks (tag key jobId publication : Nat) (name : List Byte) (s : State) :
    (s.rostered tag key jobId publication name).freeBlocks = s.freeBlocks := by
  unfold State.rostered
  dsimp only
  split
  · rw [notify_freeBlocks, notify_freeBlocks]; rfl
  · rw [notify_freeBlocks]; rfl

/-- The two publication flags of a legal publication byte (R29, 11.3). -/
theorem publication_bits {publication : Nat} (h : publication < 4) :
    bit publication 0 = decide (publication % 2 = 1) ∧ bit publication 1 = decide (2 ≤ publication) := by
  unfold bit
  constructor
  · rw [Nat.pow_zero, Nat.div_one]
  · rw [Nat.pow_one, decide_eq_decide]
    omega

/-- Settles O13: the owner's verdict on the fields, one branch after the other. -/
theorem roster : Obligations.Roster := by
  intro ch tag key publication name s hq hw clean
  have hexec := exec_wireRecord (c := .roster ch tag key publication name) hq.up rfl
  have r := carriedRecord (c := .roster ch tag key publication name) hw rfl rfl rfl
  rw [hexec]
  generalize rosterRecord tag key publication name = b at r ⊢
  have hq' := quiet_cleared hq
  have htag : recTag b = tag := r.reads.tag
  have hcode : recKindCode b = 3 := r.reads.kind
  have hkey : field b 8 4 = key := r.reads.fields (8, 4, key) (by simp)
  have hpub : field b 12 1 = publication := r.reads.fields (12, 1, publication) (by simp)
  have hcount : field b 13 1 = name.length := r.reads.fields (13, 1, name.length) (by simp)
  have hname : b.drop 16 = name := r.reads.rest
  have hlow : 16 ≤ b.length := (decoderCheck_ok r.checked).2.2
  have hlen : b.length = 16 + field b 13 1 := by
    rw [hcount, ← hname, List.length_drop]
    omega
  have hsub : recSubject b = key := by
    have h12 : recKey? b = some (field b 8 4) := if_pos (Nat.le_trans (by decide) hlow)
    simp only [recSubject, r.isKind, h12, hkey, Option.getD_some]
  have hclean : (cleanName Config.nameLength name).1 = clean := by
    simp only [cleanName, Bool.and_eq_true, decide_eq_true_eq]
    rfl
  have hj : judgeOwner ch .roster b (s.cleared.holding ch b) = _ := judgeRoster_of_fields hkey hpub hlen hname hq.noWaiters
  have refused : ∀ reason, judgeOwner ch .roster b (s.cleared.holding ch b) = .refused reason [] →
      deliver ch b s.cleared = (s.cleared.refusedOn ch tag key 3 reason []).rested := by
    intro reason h
    rw [owner_refused hq' r.whole r.checked rfl r.isKind h, htag, hcode, hsub]
  congr 1
  split
  · rename_i h
    exact refused _ (by rw [hj, if_pos h])
  · rename_i hlegal
    rw [if_neg hlegal] at hj
    have hclaim : (s.cleared.holding ch b).claim key = s.claim key := rfl
    rw [hclaim] at hj
    cases hc : s.claim key with
    | error reason =>
      rw [hc] at hj
      exact refused _ hj
    | ok j =>
      rw [hc] at hj
      dsimp only at hj ⊢
      split
      · rename_i h
        exact owner_deferred hq' r.whole r.checked rfl (hj.trans (if_pos h))
      · rename_i hroom
        have hj := hj.trans (if_neg hroom)
        rw [rostered_holding, htag] at hj
        have same := rostered_sameShop tag key j.id publication name s.cleared
        have link := rostered_sameLink tag key j.id publication name s.cleared
        have hfree := rostered_freeBlocks tag key j.id publication name s.cleared
        rw [owner_taken hq' r.whole r.checked rfl hj link.1 link.2,
          counted_rested _ hq' hfree same.storeLow same.lowMark same.pages same.compositor same.offer]
        refine congrArg State.rested ?_
        have haltered : (cleanName Config.nameLength name).2 = decide (clean ≠ name) := by rw [← hclean]; rfl
        have hnameOf : nameOf clean = if clean = [] then none else some clean := by
          cases clean <;> rfl
        obtain ⟨hphoto, hname⟩ := publication_bits (Nat.lt_of_not_le hlegal)
        clear_value clean
        unfold State.rostered State.rosterEntry
        rw [hclean, haltered, hnameOf, hphoto, hname]
        by_cases hsame : clean = name
        · rw [if_pos hsame, if_neg (by simpa using hsame)]
          rfl
        · rw [if_neg hsame, if_pos (by simpa using hsame)]
          exact (notify_modChan ..).symm

end Sys2Proof.Machine
end

section
/-! PROOF. JOB CLOSE: its refusals, the portraits it abandons, and the job's completion (R25, R28, R53, R54). -/

namespace Sys2Proof.Machine

/-! ## The open portraits of a job (R25, R54) -/

/-- The entry of a key belongs to a job (2.3). -/
def State.owns (s : State) (jobId key : Nat) : Bool := (s.entry? key).any fun e => decide (e.jobId = jobId)

/-- The filling version of a key whose entry belongs to a job, with its entry. -/
def State.ownFilling? (s : State) (jobId key : Nat) : Option (Entry × Version) :=
  (s.filling? key).filter fun x => decide (x.1.jobId = jobId)

theorem filling?_entry {s : State} {key : Nat} {x : Entry × Version} (h : s.filling? key = some x) :
    s.entry? key = some x.1 ∧ x.1.incoming.filter Version.filling = some x.2 := by
  obtain ⟨e, he, hx⟩ := Option.bind_eq_some_iff.1 h
  obtain ⟨v, hv, rfl⟩ := Option.map_eq_some_iff.1 hx
  exact ⟨he, hv⟩

theorem filling?_none_iff {s : State} {key : Nat} : s.filling? key = none ↔ s.fillingVersion key = none := by
  refine ⟨fun h => ?_, filling?_none⟩
  rw [fillingVersion_none_iff]
  intro e he
  rw [State.filling?, he, Option.bind_some, Option.map_eq_none_iff] at h
  exact h

theorem owns_of_entry {s : State} {jobId key : Nat} {e : Entry} (he : s.entry? key = some e) :
    s.owns jobId key = decide (e.jobId = jobId) := by
  rw [State.owns, he]
  rfl

theorem ownFilling?_owned {s : State} {jobId key : Nat} (h : s.owns jobId key = true) :
    s.ownFilling? jobId key = s.filling? key := by
  unfold State.ownFilling?
  cases hf : s.filling? key with
  | none => rfl
  | some x =>
    rw [owns_of_entry (filling?_entry hf).1] at h
    exact Option.filter_some_pos h

theorem ownFilling?_none {s : State} {jobId key : Nat} (h : s.owns jobId key = false) : s.ownFilling? jobId key = none := by
  unfold State.ownFilling?
  cases hf : s.filling? key with
  | none => rfl
  | some x =>
    rw [owns_of_entry (filling?_entry hf).1] at h
    exact Option.filter_some_neg h

/-- A failed portrait leaves its entry with its job. -/
theorem failPortrait_owns (jobId key k : Nat) (reason : FailReason) (tag : Nat) (extra : List Item) (s : State) :
    (failPortrait key reason tag extra s).owns jobId k = s.owns jobId k := by
  by_cases hk : k = key
  · subst hk
    cases hf : s.filling? k with
    | none => rw [failPortrait_none _ _ _ (filling?_none_iff.1 hf)]
    | some x =>
      obtain ⟨he, hv⟩ := filling?_entry hf
      have he' : (failPortrait k reason tag extra s).entry? k = some { x.1 with incoming := none } := by
        have hkey : x.1.key = k := entry?_key he
        rw [failPortrait_filling _ _ _ he hv, State.entry?, notify_entries]
        exact entry?_replaceFirst he hkey
      rw [owns_of_entry he, owns_of_entry he']
  · rw [State.owns, failPortrait_entry?_other hk]
    rfl

theorem abandonForJob_owned {s : State} {ch : Chan} {jobId key n : Nat} (tag : Nat) (hb : s.chans[ch].binding = .opened key n)
    (ho : s.owns jobId key = true) : abandonForJob jobId tag s ch = abandonOpen ch tag .skipping s := by
  unfold abandonForJob
  rw [hb]
  unfold State.owns at ho
  cases he : s.entry? key with
  | none => rw [he] at ho; cases ho
  | some e =>
    rw [he] at ho
    dsimp only
    rw [he]
    exact if_pos (by simpa using ho)

/-- A channel whose binding is not OPEN with a key of the job stands. -/
theorem abandonForJob_left {s : State} {ch : Chan} {jobId : Nat} (tag : Nat)
    (h : ∀ key n, s.chans[ch].binding = .opened key n → s.owns jobId key = false) : abandonForJob jobId tag s ch = s := by
  unfold abandonForJob
  split
  · rename_i key n hb
    have ho := h key n hb
    split
    · rename_i e he
      rw [State.owns, he] at ho
      exact if_neg (by simpa using ho)
    · rfl
  · rfl

/-- What a channel's part in a JOB CLOSE does: nothing, or the abandonment of a portrait of the job (R25, R54). -/
theorem abandonForJob_cases (s : State) (ch : Chan) (jobId tag : Nat) :
    ((∀ key n, s.chans[ch].binding = .opened key n → s.owns jobId key = false) ∧ abandonForJob jobId tag s ch = s) ∨
    ∃ key n, s.chans[ch].binding = .opened key n ∧ s.owns jobId key = true ∧
      abandonForJob jobId tag s ch = setBinding ch (.skipping key) (failPortrait key .abandoned tag [] s) := by
  by_cases h : ∀ key n, s.chans[ch].binding = .opened key n → s.owns jobId key = false
  · exact .inl ⟨h, abandonForJob_left tag h⟩
  · simp only [not_forall, Bool.not_eq_false] at h
    obtain ⟨key, n, hb, ho⟩ := h
    exact .inr ⟨key, n, hb, ho, (abandonForJob_owned tag hb ho).trans (abandonOpen_opened hb)⟩

theorem abandonForJob_other {ch c : Chan} (s : State) (jobId tag : Nat) (h : c ≠ ch) :
    (abandonForJob jobId tag s ch).chans[c] = s.chans[c] := by
  obtain ⟨-, e⟩ | ⟨key, n, hb, ho, -⟩ := abandonForJob_cases s ch jobId tag
  · rw [e]
  · rw [abandonForJob_owned tag hb ho, abandonOpen_other tag _ s h]

theorem abandonForJob_owns (s : State) (ch : Chan) (jobId tag key : Nat) :
    (abandonForJob jobId tag s ch).owns jobId key = s.owns jobId key := by
  obtain ⟨-, h⟩ | ⟨k, n, -, -, h⟩ := abandonForJob_cases s ch jobId tag
  · rw [h]
  · rw [h]
    exact failPortrait_owns ..

/-- After a channel's part in a JOB CLOSE the portraits of the job are those there were, less the channel's own. -/
theorem abandonForJob_ownFilling? {s : State} {ch : Chan} {key n : Nat} (jobId tag k : Nat)
    (hb : s.chans[ch].binding = .opened key n) :
    (abandonForJob jobId tag s ch).ownFilling? jobId k = if (!k == key) = true then s.ownFilling? jobId k else none := by
  cases ho : s.owns jobId key with
  | true =>
    rw [abandonForJob_owned tag hb ho, abandonOpen_opened hb]
    show ((failPortrait key .abandoned tag [] s).filling? k).filter _ = _
    rw [failPortrait_filling?]
    split <;> rfl
  | false =>
    rw [abandonForJob_left tag fun k' n' hb' => ?_]
    · by_cases hk : k = key
      · subst hk
        rw [ownFilling?_none ho, ite_self]
      · rw [if_pos (by simpa using hk)]
    · rw [hb] at hb'
      cases hb'
      exact ho

/-! ## What the abandonment of portraits leaves (R53, R54) -/

/-- The state with tables and channels as given, and no examination owed. -/
def State.withTables (jobs : List Job) (entries : List Entry) (free : List Run) (chans : Vector Channel 4) (s : State) :
    State :=
  { s with jobs := jobs, entries := entries, freeBlocks := free, chans := chans, wake := false }

theorem forgets_withTables (jobs : List Job) (entries : List Entry) (free : List Run) (chans : Vector Channel 4) :
    Forgets (State.withTables jobs entries free chans) :=
  ⟨fun _ => rfl, fun _ => rfl, fun _ => rfl, fun _ => rfl, fun _ => rfl, fun _ _ _ _ _ _ => rfl, fun _ _ => rfl⟩

/-- The directory without the filling versions of the portraits. -/
def entriesWithout (gone : List (Entry × Version)) (entries : List Entry) : List Entry :=
  gone.foldl (fun l x => replaceFirst (fun y => y.key = x.1.key) { x.1 with incoming := none } l) entries

/-- The free list with the blocks of the portraits. -/
def freeWith (gone : List (Entry × Version)) (free : List Run) : List Run :=
  gone.foldl (fun free x => joinRuns free x.2.blocks) free

/-- Between two states portraits are abandoned: they leave the directory, their blocks return and each is told of; else the
states differ in the channels alone. -/
structure Abandons (tag : Nat) (gone : List (Entry × Version)) (s t : State) : Prop where
  entries : t.entries = entriesWithout gone s.entries
  free : t.freeBlocks = freeWith gone s.freeBlocks
  told : ∀ jobs entries free chans,
    t.withTables jobs entries free chans = (State.tellAbandoned tag gone s).withTables jobs entries free chans

theorem Abandons.nothing {tag : Nat} {s t : State} {chans : Vector Channel 4} (h : t = { s with chans := chans }) :
    Abandons tag [] s t := by
  subst h
  exact ⟨rfl, rfl, fun _ _ _ _ => rfl⟩

theorem Abandons.trans {tag : Nat} {a b : List (Entry × Version)} {s t u : State} (h : Abandons tag a s t)
    (k : Abandons tag b t u) : Abandons tag (a ++ b) s u where
  entries := by rw [k.entries, h.entries, entriesWithout, entriesWithout, entriesWithout, List.foldl_append]
  free := by rw [k.free, h.free, freeWith, freeWith, freeWith, List.foldl_append]
  told jobs entries free chans := by
    have forgets := forgets_withTables jobs entries free chans
    rw [k.told, tellAbandoned_forgets forgets tag b (h.told jobs entries free chans), State.tellAbandoned,
      State.tellAbandoned, State.tellAbandoned, List.foldl_append]

/-- The failure of a filling version, and a change of bindings with it. -/
theorem failPortrait_abandons {s : State} {key : Nat} (tag : Nat) (chans : Vector Channel 4) :
    Abandons tag (s.filling? key).toList s { failPortrait key .abandoned tag [] s with chans := chans } := by
  cases hf : s.filling? key with
  | none =>
    rw [failPortrait_none _ _ _ (filling?_none_iff.1 hf)]
    exact .nothing rfl
  | some x =>
    obtain ⟨he, hv⟩ := filling?_entry hf
    obtain rfl := entry?_key he
    rw [failPortrait_filling _ _ _ he hv]
    refine ⟨notify_entries .., notify_freeBlocks .., fun jobs entries free chans => ?_⟩
    exact (forgets_withTables jobs entries free chans).notify _ _ _ _ rfl

/-- The portrait of a job that a channel holds open. -/
def State.ownOpen? (s : State) (jobId : Nat) (ch : Chan) : Option (Entry × Version) :=
  s.chans[ch].binding.openKey.bind (s.ownFilling? jobId)

theorem abandonForJob_abandons (s : State) (ch : Chan) (jobId tag : Nat) :
    Abandons tag (s.ownOpen? jobId ch).toList s (abandonForJob jobId tag s ch) := by
  obtain ⟨hleft, h⟩ | ⟨key, n, hb, ho, h⟩ := abandonForJob_cases s ch jobId tag
  · have hnone : s.ownOpen? jobId ch = none := by
      unfold State.ownOpen?
      cases hb : s.chans[ch].binding with
      | opened key n => exact ownFilling?_none (hleft key n hb)
      | unbound | skipping key => rfl
    rw [h, hnone]
    exact .nothing rfl
  · have hown : s.ownOpen? jobId ch = s.filling? key := by
      rw [State.ownOpen?, hb]
      exact ownFilling?_owned ho
    rw [h, hown]
    exact failPortrait_abandons tag _

/-! ## The open portraits of a job, channel by channel (R54) -/

/-- The portraits of a job that some channels hold open, each told once. -/
def State.ownOpen (s : State) (jobId : Nat) (l : List Chan) : List (Entry × Version) :=
  (s.openKeys l).eraseDups.filterMap (s.ownFilling? jobId)

theorem ownOpen_eq (s : State) (jobId : Nat) :
    s.openPortraits.filter (fun x => decide (x.1.jobId = jobId)) = s.ownOpen jobId (List.finRange 4) :=
  List.filter_filterMap ..

/-- The first channel's portrait comes first; its abandonment takes it from those that follow. -/
theorem ownOpen_cons (s : State) (jobId tag : Nat) {c : Chan} {rest : List Chan} (hc : c ∉ rest) : s.ownOpen jobId (c :: rest) =
    (s.ownOpen? jobId c).toList ++ (abandonForJob jobId tag s c).ownOpen jobId rest := by
  have hkeys : (abandonForJob jobId tag s c).openKeys rest = s.openKeys rest :=
    openKeys_congr fun k hk => abandonForJob_other s jobId tag fun e => hc (e ▸ hk)
  have hcons : s.openKeys (c :: rest) = s.chans[c].binding.openKey.toList ++ s.openKeys rest := by
    rw [State.openKeys, List.filterMap_cons]
    cases s.chans[c].binding.openKey <;> rfl
  cases hb : s.chans[c].binding with
  | unbound | skipping key =>
    have hleft : abandonForJob jobId tag s c = s := abandonForJob_left tag (by rw [hb]; exact fun _ _ => nofun)
    rw [State.ownOpen, hcons, hleft, State.ownOpen?, hb]
    rfl
  | opened key n =>
    have hopen : s.openKeys (c :: rest) = key :: s.openKeys rest := by rw [hcons, hb]; rfl
    have hown : s.ownOpen? jobId c = s.ownFilling? jobId key := by rw [State.ownOpen?, hb]; rfl
    have hless : (s.openKeys rest).eraseDups.filterMap ((abandonForJob jobId tag s c).ownFilling? jobId) =
        ((s.openKeys rest).filter fun k => !k == key).eraseDups.filterMap (s.ownFilling? jobId) := by
      rw [filter_eraseDups, List.filterMap_filter]
      exact List.filterMap_congr fun k _ => abandonForJob_ownFilling? jobId tag k hb
    rw [State.ownOpen, State.ownOpen, hopen, hkeys, hown, hless, List.eraseDups_cons, List.filterMap_cons]
    cases s.ownFilling? jobId key <;> rfl

theorem foldl_abandonForJob (jobId tag : Nat) (l : List Chan) (hl : l.Nodup) (s : State) :
    Abandons tag (s.ownOpen jobId l) s (l.foldl (abandonForJob jobId tag) s) := by
  induction l generalizing s with
  | nil => exact .nothing rfl
  | cons c rest ih =>
    obtain ⟨hc, hrest⟩ := List.nodup_cons.1 hl
    rw [ownOpen_cons s jobId tag hc, List.foldl_cons]
    exact (abandonForJob_abandons s c jobId tag).trans (ih hrest _)

/-! ## The channels after a JOB CLOSE (R54) -/

/-- A channel whose OPEN binding becomes a SKIP of its key, where the key meets the test. -/
def Channel.skipOpen (p : Nat → Bool) (c : Channel) : Channel :=
  { c with binding := match c.binding with
    | .opened key n => if p key then .skipping key else .opened key n
    | .skipping key => .skipping key
    | .unbound => .unbound }

theorem skipOpen_at (p : Nat → Bool) (chans : Vector Channel 4) (ch : Chan) :
    (Machine.skipOpen p chans)[ch] = chans[ch].skipOpen p := Vector.getElem_map ..

/-- A channel that holds no such key open stands. -/
theorem Channel.skipOpen_left {p : Nat → Bool} {c : Channel} (h : ∀ key n, c.binding = .opened key n → p key = false) :
    c.skipOpen p = c := by
  have hsame : ∀ bd, c.binding = bd → { c with binding := bd } = c := fun bd e => by rw [← e]
  unfold Channel.skipOpen
  cases hb : c.binding with
  | opened key n =>
    dsimp only
    rw [h key n hb]
    exact hsame _ hb
  | unbound | skipping key => exact hsame _ hb

theorem abandonForJob_self (s : State) (jobId tag : Nat) (ch : Chan) :
    (abandonForJob jobId tag s ch).chans[ch] = s.chans[ch].skipOpen (s.owns jobId) := by
  obtain ⟨hleft, h⟩ | ⟨key, n, hb, ho, h⟩ := abandonForJob_cases s ch jobId tag
  · rw [h, Channel.skipOpen_left hleft]
  · rw [h, setBinding, modChan_self, failPortrait_chans, Channel.skipOpen, hb]
    dsimp only
    rw [ho]
    rfl

theorem foldl_abandonForJob_chans (jobId tag : Nat) (l : List Chan) (hl : l.Nodup) (s : State) (c : Chan) :
    (l.foldl (abandonForJob jobId tag) s).chans[c] = if c ∈ l then s.chans[c].skipOpen (s.owns jobId) else s.chans[c] := by
  induction l generalizing s with
  | nil => rfl
  | cons a rest ih =>
    obtain ⟨ha, hrest⟩ := List.nodup_cons.1 hl
    have howns : (abandonForJob jobId tag s a).owns jobId = s.owns jobId := funext (abandonForJob_owns s a jobId tag)
    rw [List.foldl_cons, ih hrest, howns]
    by_cases hc : c = a
    · subst hc
      rw [if_neg ha, if_pos List.mem_cons_self, abandonForJob_self]
    · rw [abandonForJob_other s jobId tag hc]
      simp only [List.mem_cons, hc, false_or]

/-! ## A record in a channel's buffer takes no part in a JOB CLOSE -/

theorem abandonForJob_holding (ch c : Chan) (b : List Byte) (jobId tag : Nat) (s : State) :
    abandonForJob jobId tag (s.holding ch b) c = (abandonForJob jobId tag s c).holding ch b := by
  have hb : (s.holding ch b).chans[c].binding = s.chans[c].binding := by
    by_cases hc : c = ch
    · subst hc; rw [holding_self]
    · rw [holding_other _ _ hc]
  obtain ⟨hleft, h⟩ | ⟨key, n, hopen, ho, -⟩ := abandonForJob_cases s c jobId tag
  · rw [h]
    exact abandonForJob_left tag (by rw [hb]; exact hleft)
  · rw [abandonForJob_owned tag hopen ho, abandonForJob_owned (s := s.holding ch b) tag (hb.trans hopen) ho,
      abandonOpen_holding]

theorem foldl_abandonForJob_holding (ch : Chan) (b : List Byte) (jobId tag : Nat) (l : List Chan) (s : State) :
    l.foldl (abandonForJob jobId tag) (s.holding ch b) = (l.foldl (abandonForJob jobId tag) s).holding ch b := by
  induction l generalizing s with
  | nil => rfl
  | cons c rest ih => rw [List.foldl_cons, List.foldl_cons, abandonForJob_holding, ih]

theorem completeJob_holding (ch : Chan) (b : List Byte) (j : Job) (s : State) :
    completeJob j (s.holding ch b) = (completeJob j s).holding ch b := by
  obtain h | ⟨tag, hclosing, hlive⟩ := completeJob_cases j
  · rw [h, h]
  · have hemptied : (s.holding ch b).jobEmptied j = (s.jobEmptied j).holding ch b := rfl
    have hwindow : (s.holding ch b).window j = s.window j := rfl
    rw [completeJob_completes hclosing hlive, completeJob_completes hclosing hlive, hemptied, hwindow]
    exact notify_modChan ..

/-! ## What a JOB CLOSE leaves beside the tables -/

theorem abandonForJob_sameShop (s : State) (ch : Chan) (jobId tag : Nat) : SameShop s (abandonForJob jobId tag s ch) := by
  obtain ⟨-, h⟩ | ⟨key, n, -, -, h⟩ := abandonForJob_cases s ch jobId tag
  · rw [h]
    exact .rfl' s
  · rw [h]
    exact (failPortrait_sameShop ..).trans (setBinding_sameShop ..)

theorem abandonForJob_waiting (s : State) (ch : Chan) (jobId tag : Nat) :
    (abandonForJob jobId tag s ch).waiting = s.waiting := by
  obtain ⟨-, h⟩ | ⟨key, n, -, -, h⟩ := abandonForJob_cases s ch jobId tag
  · rw [h]
  · rw [h]
    exact (failPortrait_sameLink ..).2

theorem foldl_abandonForJob_waiting (jobId tag : Nat) (l : List Chan) (s : State) :
    (l.foldl (abandonForJob jobId tag) s).waiting = s.waiting := by
  induction l generalizing s with
  | nil => rfl
  | cons c rest ih => rw [List.foldl_cons, ih, abandonForJob_waiting]

theorem completeJob_steady (j : Job) {s : State} (h : Steady s) : Steady (completeJob j s) := by
  obtain hsame | ⟨tag, hclosing, hlive⟩ := completeJob_cases j
  · rw [hsame]
    exact h
  · rw [completeJob_completes hclosing hlive]
    exact (notify_sameShop ..).steady h

/-- The completion of a job does not read whether an examination is owed. -/
theorem completeJob_rested (j : Job) {s t : State} (h : s.rested = t.rested) :
    (completeJob j s).rested = (completeJob j t).rested := by
  obtain hsame | ⟨tag, hclosing, hlive⟩ := completeJob_cases j
  · rw [hsame, hsame, h]
  · have hemptied : s.jobEmptied j = t.jobEmptied j := by
      show s.rested.jobEmptied j = t.rested.jobEmptied j
      rw [h]
    have hwindow : s.window j = t.window j := by
      show s.rested.window j = t.rested.window j
      rw [h]
    rw [completeJob_completes hclosing hlive, completeJob_completes hclosing hlive, hemptied, hwindow]

/-! ## JOB CLOSE (R25) -/

/-- The state in which a job is CLOSING and the portraits of it that channels hold open are abandoned. -/
def State.jobClosing (tag : Nat) (j : Job) (s : State) : State :=
  (List.finRange 4).foldl (abandonForJob j.id tag) (setJob { j with state := .closing tag } s)

/-- The state that a JOB CLOSE leaves, but for the count of the record and the judging of the store low state. -/
def State.afterClose (tag : Nat) (j : Job) (s : State) : State :=
  wakeUp (completeJob { j with state := .closing tag } (s.jobClosing tag j))

theorem jobClosing_chans (tag : Nat) (j : Job) (s : State) :
    (s.jobClosing tag j).chans = Machine.skipOpen (s.owns j.id) s.chans := by
  refine Vector.ext fun i hi => ?_
  have h := foldl_abandonForJob_chans j.id tag _ (List.nodup_finRange 4) (setJob { j with state := .closing tag } s) ⟨i, hi⟩
  rw [if_pos (List.mem_finRange _)] at h
  exact h.trans (skipOpen_at _ _ (⟨i, hi⟩ : Chan)).symm

theorem jobClosing_waiting (tag : Nat) (j : Job) (s : State) : (s.jobClosing tag j).waiting = s.waiting :=
  foldl_abandonForJob_waiting ..

theorem jobClosing_steady (tag : Nat) (j : Job) {s : State} (h : Steady s) : Steady (s.jobClosing tag j) :=
  (foldl_sameShop _ (fun s ch => abandonForJob_sameShop s ch j.id tag) _ _).steady h

theorem afterClose_sameLink (tag : Nat) (j : Job) (s : State) : SameLink (s.jobClosing tag j) (s.afterClose tag j) :=
  completeJob_sameLink ..

/-- The tables, the channels and the notices that a JOB CLOSE leaves before the job completes. -/
theorem jobClosing_rested (tag : Nat) (j : Job) (s : State) :
    let gone := s.openPortraits.filter fun x => decide (x.1.jobId = j.id)
    (s.jobClosing tag j).rested = State.rested { s.tellAbandoned tag gone with
      jobs := replaceFirst (fun k => k.id = j.id) { j with state := .closing tag } s.jobs
      entries := entriesWithout gone s.entries
      freeBlocks := freeWith gone s.freeBlocks
      chans := Machine.skipOpen (s.owns j.id) s.chans } := by
  intro gone
  let closing := setJob { j with state := .closing tag } s
  have hgone : gone = closing.ownOpen j.id (List.finRange 4) := ownOpen_eq s j.id
  have left := foldl_abandonForJob j.id tag _ (List.nodup_finRange 4) closing
  rw [← hgone] at left
  have hjobs : (s.jobClosing tag j).jobs = closing.jobs :=
    (foldl_sameShop _ (fun s ch => abandonForJob_sameShop s ch j.id tag) _ _).jobs
  have htold := left.told closing.jobs (entriesWithout gone s.entries) (freeWith gone s.freeBlocks)
    (Machine.skipOpen (s.owns j.id) s.chans)
  have hforget := tellAbandoned_forgets (s := closing) (t := s) (forgets_withTables closing.jobs
    (entriesWithout gone s.entries) (freeWith gone s.freeBlocks) (Machine.skipOpen (s.owns j.id) s.chans)) tag gone rfl
  have hself : (s.jobClosing tag j).rested = (s.jobClosing tag j).withTables closing.jobs (entriesWithout gone s.entries)
      (freeWith gone s.freeBlocks) (Machine.skipOpen (s.owns j.id) s.chans) := by
    have hentries : (s.jobClosing tag j).entries = entriesWithout gone s.entries := left.entries
    have hfree : (s.jobClosing tag j).freeBlocks = freeWith gone s.freeBlocks := left.free
    rw [← hjobs, ← jobClosing_chans tag j s, ← hentries, ← hfree]
    rfl
  exact hself.trans (htold.trans hforget)

theorem judgeJobClose_holding {s : State} {b : List Byte} {j : Job} (ch : Chan) (hj : s.job? (field b 8 1) = some j)
    (ho : j.state = .opened) :
    judgeJobClose b (s.holding ch b) = .taken ((s.afterClose (recTag b) j).holding ch b) := by
  have hid : j.id = field b 8 1 := job?_id hj
  have hj' : (s.holding ch b).job? (field b 8 1) = some j := hj
  have hset : ∀ k, setJob k (s.holding ch b) = (setJob k s).holding ch b := fun _ => rfl
  have hwake : ∀ t : State, wakeUp (t.holding ch b) = (wakeUp t).holding ch b := fun _ => rfl
  unfold judgeJobClose
  dsimp only
  rw [hj']
  dsimp only
  rw [if_pos ho, hset, foldl_abandonForJob_holding, completeJob_holding, hwake, ← hid]
  rfl

theorem deliver_jobClose {ch : Chan} {s : State} (hq : Quiet ch s) {b : List Byte} {tag jobId : Nat} {j : Job}
    (r : CarriedRecord b .jobClose ⟨2, tag, [(8, 1, jobId)], 12, []⟩) (hj : s.job? jobId = some j) (ho : j.state = .opened) :
    deliver ch b s = (judgeStore tag ((s.afterClose tag j).counted ch)).rested := by
  obtain rfl : recTag b = tag := r.reads.tag
  obtain rfl : field b 8 1 = jobId := r.reads.fields (8, 1, jobId) (by simp)
  have hlink := afterClose_sameLink (recTag b) j s
  have hchan : ∀ c : Chan, (s.afterClose (recTag b) j).chans[c] = s.chans[c].skipOpen (s.owns j.id) := fun c => by
    rw [hlink.1, jobClosing_chans, skipOpen_at]
  have hwait : (s.afterClose (recTag b) j).waiting = s.waiting := hlink.2.trans (jobClosing_waiting ..)
  refine deliver_takenFrom hq r.whole r.checked rfl (judgeJobClose_holding ch hj ho) (Nat.le_refl _)
    ⟨?_, ?_, ?_⟩ (hwait.trans hq.noWaiters) (fun c _ => ?_) (completeJob_steady _ (jobClosing_steady _ j hq.steady))
  · rw [hchan]; exact hq.empty
  · rw [hchan]; exact hq.ready
  · rw [hchan]; exact hq.mark
  · rw [← hq.still c]
    exact presents_same (by rw [hchan]; rfl) (by rw [hchan]; rfl) hwait

/-- Settles O11: the verdict on the job, and what the abandonment of its open portraits and its completion leave. -/
theorem jobClose : Obligations.JobClose := by
  intro ch tag jobId s hq hw
  have hexec := exec_wireRecord (c := .jobClose ch tag jobId) hq.up rfl
  have r := carriedRecord (c := .jobClose ch tag jobId) hw rfl rfl rfl
  rw [hexec]
  generalize jobCloseRecord tag jobId = b at r ⊢
  have hq' := quiet_cleared hq
  have htag : recTag b = tag := r.reads.tag
  have hcode : recKindCode b = 2 := r.reads.kind
  have hid : field b 8 1 = jobId := r.reads.fields (8, 1, jobId) (by simp)
  have hsub : recSubject b = jobId := by
    have hl : 9 ≤ b.length := Nat.le_trans (by decide) (decoderCheck_ok r.checked).2.2
    simp only [recSubject, r.isKind, if_pos hl, hid]
  have hlook : (s.cleared.holding ch b).job? (field b 8 1) = s.job? jobId := by rw [hid]; rfl
  have refused : ∀ reason, judgeJobClose b (s.cleared.holding ch b) = .refused reason [] →
      deliver ch b s.cleared = (s.cleared.refusedOn ch tag jobId 2 reason []).rested := by
    intro reason h
    rw [owner_refused hq' r.whole r.checked rfl r.isKind h, htag, hcode, hsub]
  refine ⟨fun hnone => congrArg Host.Outcome.next (refused _ ?_), fun j hj =>
    ⟨fun t ht => congrArg Host.Outcome.next (refused _ ?_), fun ho => congrArg Host.Outcome.next ?_⟩⟩
  · unfold judgeJobClose
    dsimp only
    rw [hlook, hnone]
  · unfold judgeJobClose
    dsimp only
    rw [hlook, hj]
    dsimp only
    rw [ht, if_neg nofun]
  · obtain rfl : j.id = jobId := job?_id hj
    rw [deliver_jobClose hq' r hj ho]
    refine judgeStore_rested tag ?_
    rw [rested_counted, rested_counted]
    exact congrArg (State.counted ch) (completeJob_rested _ (jobClosing_rested tag j s.cleared))

end Sys2Proof.Machine
end

section
/-! PROOF. What a page pins at its composition start, and what its release gives back (R27, R28, R35 to R37, R82, R99, R102,
R107, R120, R143). -/

namespace Sys2Proof.Machine

/-! ## A replaced member in a list of distinct keys -/

theorem map_replaceFirst_key {α β : Type} [DecidableEq β] (f : α → β) (x : α) (l : List α) :
    (replaceFirst (fun a => f a = f x) x l).map f = l.map f := by
  induction l with
  | nil => rfl
  | cons a rest ih =>
    unfold replaceFirst
    split
    · rename_i ha
      rw [List.map_cons, List.map_cons, of_decide_eq_true ha]
    · rw [List.map_cons, List.map_cons, ih]

theorem map_removeFirst_key {α β : Type} [DecidableEq β] (f : α → β) (k : β) (l : List α) :
    (removeFirst (fun a => f a = k) l).map f = (l.map f).erase k := by
  induction l with
  | nil => rfl
  | cons a rest ih =>
    unfold removeFirst
    by_cases ha : f a = k
    · rw [if_pos (decide_eq_true ha), List.map_cons, ha, List.erase_cons_head]
    · rw [if_neg (by simpa using ha), List.map_cons, List.map_cons, ih, List.erase_cons_tail (by simpa using ha)]

theorem replaceFirst_found {α : Type} {p : α → Bool} {x : α} {l : List α} (h : l.find? p = some x) :
    replaceFirst p x l = l := by
  induction l with
  | nil => rfl
  | cons a rest ih =>
    unfold replaceFirst
    split
    · rename_i ha
      rw [List.find?_cons_of_pos ha, Option.some.injEq] at h
      rw [h]
    · rename_i ha
      rw [List.find?_cons_of_neg ha] at h
      rw [ih h]

theorem replaceFirst_replaceFirst {α : Type} {p : α → Bool} {x : α} (hx : p x = true) (y : α) (l : List α) :
    replaceFirst p y (replaceFirst p x l) = replaceFirst p y l := by
  induction l with
  | nil => rfl
  | cons a rest ih =>
    by_cases ha : p a = true
    · simp [replaceFirst, ha, hx]
    · simp [replaceFirst, ha, ih]

theorem removeFirst_replaceFirst {α : Type} {p : α → Bool} {x : α} (hx : p x = true) (l : List α) :
    removeFirst p (replaceFirst p x l) = removeFirst p l := by
  induction l with
  | nil => rfl
  | cons a rest ih =>
    by_cases ha : p a = true
    · simp [replaceFirst, removeFirst, ha, hx]
    · simp [replaceFirst, removeFirst, ha, ih]

/-- Where the entry of a key changes as `f` says, the directory changes as `f` says at that key and stands elsewhere. -/
theorem replaceFirst_entry {s : State} (hd : EntryKeysDistinct s) {key : Nat} {e : Entry} (he : s.entry? key = some e)
    (f : Entry → Entry) :
    replaceFirst (fun x => x.key = key) (f e) s.entries = s.entries.map fun x => if x.key = key then f x else x := by
  unfold EntryKeysDistinct at hd
  unfold State.entry? at he
  generalize s.entries = l at hd he ⊢
  induction l with
  | nil => rfl
  | cons a rest ih =>
    rw [List.map_cons, List.nodup_cons] at hd
    obtain ⟨hnew, hrest⟩ := hd
    by_cases ha : a.key = key
    · subst ha
      have hstand : (rest.map fun x => if x.key = a.key then f x else x) = rest :=
        (List.map_congr_left fun x hx => if_neg fun e => hnew (List.mem_map.2 ⟨x, hx, e⟩)).trans (List.map_id' rest)
      have hae : a = e := by simpa using he
      rw [List.map_cons, hstand, ← hae]
      simp [replaceFirst]
    · have he : rest.find? (fun x => x.key = key) = some e := by simpa [ha] using he
      rw [List.map_cons, ← ih hrest he]
      simp [replaceFirst, ha]

/-- A change at the key of no entry is none. -/
theorem map_entry_absent {s : State} {key : Nat} (he : s.entry? key = none) (f : Entry → Entry) :
    (s.entries.map fun x => if x.key = key then f x else x) = s.entries := by
  have hnone : ∀ x ∈ s.entries, ¬ x.key = key := by simpa [State.entry?] using he
  exact (List.map_congr_left fun x hx => if_neg (hnone x hx)).trans (List.map_id' _)

/-- A change of entries that leaves their keys leaves the keys distinct. -/
theorem EntryKeysDistinct.map {s t : State} (h : EntryKeysDistinct s) {f : Entry → Entry} (hf : ∀ e, (f e).key = e.key)
    (ht : t.entries = s.entries.map f) : EntryKeysDistinct t := by
  unfold EntryKeysDistinct
  rw [ht, List.map_map]
  exact (congrArg List.Nodup (List.map_congr_left fun e _ => hf e)).mpr h

/-! ## Pins at the composition start (R35) -/

theorem pinVersion_eq {s : State} (hd : EntryKeysDistinct s) (key : Nat) :
    pinVersion key s = { s with entries := s.entries.map fun e => if e.key = key then e.pinned else e } := by
  cases he : s.entry? key with
  | none =>
    rw [map_entry_absent he, pinVersion, he]
  | some e =>
    have hkey : e.key = key := entry?_key he
    rw [← replaceFirst_entry hd he Entry.pinned, pinVersion, he]
    dsimp only
    cases hc : e.current with
    | none =>
      have hsame : e.pinned = e := by
        obtain ⟨_, _, _, _, _, _, _, current, _⟩ := e
        subst hc
        rfl
      have hfound : replaceFirst (fun x => x.key = key) e s.entries = s.entries := replaceFirst_found he
      rw [hsame, hfound]
    | some c =>
      have hpinned : e.pinned = { e with current := some { c with pins := c.pins + 1 } } := by
        rw [Entry.pinned, hc]
        rfl
      rw [hpinned, ← hkey]
      rfl

theorem foldl_pinVersion {s : State} (hd : EntryKeysDistinct s) (named : List (Nat × Nat)) (hn : (named.map (·.1)).Nodup) :
    named.foldl (fun s k => pinVersion k.1 s) s =
      { s with entries := s.entries.map fun e => if e.key ∈ named.map (·.1) then e.pinned else e } := by
  induction named generalizing s with
  | nil =>
    have : (s.entries.map fun e => if e.key ∈ ([] : List (Nat × Nat)).map (·.1) then e.pinned else e) = s.entries :=
      (List.map_congr_left fun e _ => if_neg (List.not_mem_nil)).trans (List.map_id' _)
    rw [this]
    rfl
  | cons k rest ih =>
    rw [List.map_cons, List.nodup_cons] at hn
    obtain ⟨hk, hrest⟩ := hn
    have hstep := pinVersion_eq hd k.1
    have hd' : EntryKeysDistinct (pinVersion k.1 s) := by
      rw [hstep]
      exact hd.map (fun e => by split <;> rfl) rfl
    rw [List.foldl_cons, ih hd' hrest, hstep]
    dsimp only
    rw [List.map_map]
    congr 1
    refine List.map_congr_left fun e _ => ?_
    by_cases he : e.key = k.1
    · have hnot : ¬ e.pinned.key ∈ rest.map (·.1) := fun h => hk (he ▸ h)
      simp only [Function.comp, he, if_true, List.map_cons, List.mem_cons, true_or, if_neg hnot]
    · simp only [Function.comp, he, if_false, List.map_cons, List.mem_cons, false_or]

/-- A cell pins a version of its own nonzero key or none (R35, R100). -/
theorem captureCell_pinned {s : State} {b : TemplateBuffer} {cell key : Nat} {k : Nat × Nat}
    (h : (captureCell s b cell key).pinned = some k) : k.1 = key ∧ key ≠ 0 := by
  have hkey : (captureCell s b cell key).key = key := by
    unfold captureCell
    split
    · rfl
    · split <;> rfl
  have hpin : k.1 = (captureCell s b cell key).key := by
    unfold CastRecord.pinned at h
    split at h
    · cases h; rfl
    · cases h
  refine ⟨hpin.trans hkey, fun hz => ?_⟩
  unfold captureCell at h
  rw [if_pos hz] at h
  cases h

theorem named_sublist (s : State) (b : TemplateBuffer) (cells : List (Nat × Nat)) :
    (((cells.map fun c => captureCell s b c.1 c.2).filterMap CastRecord.pinned).map (·.1)).Sublist
      ((cells.map (·.2)).filter (· ≠ 0)) := by
  induction cells with
  | nil => exact .refl _
  | cons c rest ih =>
    rw [List.map_cons, List.filterMap_cons, List.map_cons]
    cases hp : (captureCell s b c.1 c.2).pinned with
    | none => exact ih.trans ((List.sublist_cons_self _ _).filter _)
    | some k =>
      obtain ⟨hk, hz⟩ := captureCell_pinned hp
      rw [List.filter_cons_of_pos (by simpa using hz)]
      dsimp only
      rw [List.map_cons, hk]
      exact ih.cons_cons _

/-- What a page's composition start does (R35, R99, R102). -/
theorem compositionStart_eq {p : Page} {b : TemplateBuffer} {s : State} (hb : s.templateOf p = some b)
    (hd : EntryKeysDistinct s) (hc : ((p.cells.map (·.2)).filter (· ≠ 0)).Nodup) :
    let cast := capture s b p
    compositionStart p s = fillGathering (notify .pageComposing p.tag p.id
      [.two cast.cause.code, .two cast.missing, .two cast.withheld, .two cast.undersized, .two cast.clipped,
        .two cast.omitted, flagItem [decide (1 ≤ cast.missing)]]
      (setPage { leaveGathering p with cast := some cast }
        { s with entries := s.entries.map fun e =>
          if e.key ∈ (cast.cells.filterMap CastRecord.pinned).map (·.1) then e.pinned else e })) := by
  intro cast
  have hn : ((cast.cells.filterMap CastRecord.pinned).map (·.1)).Nodup := hc.sublist (named_sublist s b p.cells)
  unfold compositionStart
  rw [hb]
  dsimp only
  rw [foldl_pinVersion hd _ hn]
  rfl

/-! ## Promotions and lost pins (R36, R37, R51) -/

/-- The entry that a role change leaves (R51). -/
def RoleChange.entry : RoleChange → Entry
  | .promoted e _ _ => e
  | .awaits e => e

theorem roleChange_key (e : Entry) (v : Version) : (roleChange e v).entry.key = e.key := by
  unfold roleChange
  split
  · rfl
  · split
    · rfl
    · split <;> rfl

theorem reportReady_sameShop (key : Nat) (v : Version) (r : Option (Nat × Bool)) (s : State) :
    SameShop s (reportReady key v r s) := by
  unfold reportReady
  split
  · exact .rfl' s
  · split
    · exact notify_sameShop ..
    · exact (notify_sameShop ..).trans (notify_sameShop ..)

theorem reportReady_entries (key : Nat) (v : Version) (r : Option (Nat × Bool)) (s : State) :
    (reportReady key v r s).entries = s.entries := by
  unfold reportReady
  split
  · rfl
  · split
    · exact notify_entries ..
    · exact (notify_entries ..).trans (notify_entries ..)

theorem takeRole_entries (e : Entry) (v : Version) (s : State) :
    (takeRole e v s).entries = replaceFirst (fun x => x.key = e.key) (roleChange e v).entry s.entries := by
  have hkey := roleChange_key e v
  unfold takeRole
  split
  · rename_i e' h
    rw [h] at hkey ⊢
    rw [← hkey]
    rfl
  · rename_i e' freed replaced h
    rw [h] at hkey ⊢
    rw [reportReady_entries, ← hkey]
    rfl

theorem takeRole_sameShop (e : Entry) (v : Version) (s : State) : SameShop s (takeRole e v s) := by
  unfold takeRole
  split
  · exact setEntry_sameShop _ s
  · exact ((setEntry_sameShop _ s).trans (returnBlocks_sameShop ..)).trans (reportReady_sameShop ..)

/-- The promotion that an entry allows is the role change of the version that awaits it (R37, R51). -/
theorem promoted_awaiting {e : Entry} {v : Version} (h : e.awaiting = some v) : e.promoted = (roleChange e v).entry := by
  have hin : e.incoming = some v := by
    unfold Entry.awaiting at h
    split at h
    · rename_i u hu
      split at h
      · cases h
      · cases h; exact hu
    · cases h
  obtain ⟨_, _, _, _, _, _, incoming, current, retiring⟩ := e
  obtain rfl : incoming = some v := hin
  unfold Entry.promoted roleChange
  rw [h]
  cases current with
  | none => rfl
  | some c =>
    dsimp only
    by_cases hp : c.pins = 0
    · rw [if_pos hp]
      cases retiring <;> exact if_pos hp
    · rw [if_neg hp]
      cases retiring <;> exact if_neg hp

theorem promote_entries {s : State} {key : Nat} {e : Entry} (he : s.entry? key = some e) :
    (promote key s).entries = replaceFirst (fun x => x.key = key) e.promoted s.entries := by
  unfold promote
  rw [he]
  dsimp only
  cases ha : e.awaiting with
  | none =>
    have hsame : e.promoted = e := by rw [Entry.promoted, ha]
    rw [hsame]
    exact (replaceFirst_found he).symm
  | some v =>
    dsimp only
    rw [takeRole_entries, promoted_awaiting ha, entry?_key he]

theorem promote_sameShop (key : Nat) (s : State) : SameShop s (promote key s) := by
  unfold promote
  split
  · exact .rfl' s
  · split
    · exact .rfl' s
    · exact takeRole_sameShop ..

/-- A promotion after a change of its entry. -/
theorem promote_replaced {s t : State} {key : Nat} {e e' : Entry} (he : s.entry? key = some e) (hk : e'.key = key)
    (ht : t.entries = replaceFirst (fun x => x.key = key) e' s.entries) :
    (promote key t).entries = replaceFirst (fun x => x.key = key) e'.promoted s.entries := by
  have he' : t.entry? key = some e' := by
    rw [State.entry?, ht]
    exact entry?_replaceFirst he hk
  rw [promote_entries he', ht]
  exact replaceFirst_replaceFirst (p := fun x : Entry => x.key = key) (decide_eq_true hk) _ _

theorem promoted_key (e : Entry) : e.promoted.key = e.key := by
  unfold Entry.promoted
  split
  · rfl
  · rfl
  · split <;> rfl
  · split <;> rfl

theorem unpinned_key (number : Nat) (e : Entry) : (e.unpinned number).key = e.key := by
  unfold Entry.unpinned
  split
  · split
    · exact promoted_key _
    · rfl
  · dsimp only
    split
    · exact promoted_key _
    · rfl
  · rfl

theorem unpinVersion_entries (tag number : Nat) {s : State} {key : Nat} {e : Entry} (he : s.entry? key = some e) :
    (unpinVersion tag key number s).entries = replaceFirst (fun x => x.key = key) (e.unpinned number) s.entries := by
  obtain rfl := entry?_key he
  unfold unpinVersion Entry.unpinned
  rw [he]
  dsimp only
  cases hr : e.retiring.filter (·.number = number) with
  | some r =>
    dsimp only
    split
    · exact promote_replaced he rfl (notify_entries ..)
    · rfl
  | none =>
    dsimp only
    cases hc : e.current.filter (·.number = number) with
    | some c =>
      dsimp only
      split
      · exact promote_replaced he rfl rfl
      · rfl
    | none => exact (replaceFirst_found he).symm

theorem unpinVersion_sameShop (tag key number : Nat) (s : State) : SameShop s (unpinVersion tag key number s) := by
  unfold unpinVersion
  split
  · exact .rfl' s
  · split
    · split
      · exact (((setEntry_sameShop _ s).trans (returnBlocks_sameShop ..)).trans (notify_sameShop ..)).trans
          (promote_sameShop ..)
      · exact setEntry_sameShop _ s
    · split
      · dsimp only
        split
        · exact (setEntry_sameShop _ s).trans (promote_sameShop ..)
        · exact setEntry_sameShop _ s
      · exact .rfl' s

/-- The entry after a page that pinned the named versions has let go of them (R36, R37). -/
def Entry.released (named : List (Nat × Nat)) (e : Entry) : Entry :=
  match named.find? (·.1 = e.key) with
  | some k => e.unpinned k.2
  | none => e

theorem released_absent {named : List (Nat × Nat)} {e : Entry} (h : e.key ∉ named.map (·.1)) : e.released named = e := by
  have hnone : named.find? (·.1 = e.key) = none := by
    rw [List.find?_eq_none]
    intro k hk he
    exact h (List.mem_map.2 ⟨k, hk, of_decide_eq_true he⟩)
  rw [Entry.released, hnone]

theorem unpinVersion_map (tag key number : Nat) {s : State} (hd : EntryKeysDistinct s) :
    (unpinVersion tag key number s).entries = s.entries.map fun e => if e.key = key then e.unpinned number else e := by
  cases he : s.entry? key with
  | none => rw [map_entry_absent he, unpinVersion, he]
  | some e => rw [unpinVersion_entries tag number he, replaceFirst_entry hd he (Entry.unpinned number)]

theorem foldl_unpinVersion (tag : Nat) (named : List (Nat × Nat)) {s : State} (hd : EntryKeysDistinct s)
    (hn : (named.map (·.1)).Nodup) :
    (named.foldl (fun s k => unpinVersion tag k.1 k.2 s) s).entries = s.entries.map (Entry.released named) := by
  induction named generalizing s with
  | nil => exact (List.map_id' s.entries).symm
  | cons k rest ih =>
    rw [List.map_cons, List.nodup_cons] at hn
    obtain ⟨hk, hrest⟩ := hn
    have hstep := unpinVersion_map tag k.1 k.2 hd
    have hd' : EntryKeysDistinct (unpinVersion tag k.1 k.2 s) := hd.map (fun e => by
      split
      · exact unpinned_key ..
      · rfl) hstep
    rw [List.foldl_cons, ih hd' hrest, hstep, List.map_map]
    refine List.map_congr_left fun e _ => ?_
    by_cases he : e.key = k.1
    · have hnot : (e.unpinned k.2).key ∉ rest.map (·.1) := by
        rw [unpinned_key, he]
        exact hk
      rw [Function.comp, if_pos he, released_absent hnot, Entry.released,
        List.find?_cons_of_pos (by simpa using he.symm)]
    · rw [Function.comp, if_neg he, Entry.released, Entry.released,
        List.find?_cons_of_neg (by simpa using Ne.symm he)]

/-! ## The template buffer, the buffers and the job of a released page (R27, R28, R82, R107, R120, R143) -/

/-- A template buffer after a page has let go of it; absent where it is FREE (R82). -/
def TemplateBuffer.unpinned (b : TemplateBuffer) : Option TemplateBuffer :=
  if b.superseded.isSome ∧ b.pins ≤ 1 then none else some { b with pins := b.pins - 1 }

theorem unpinTemplate_cases (k : Fin 12) (s : State) :
    (s.templates[k] = none ∧ unpinTemplate k s = s) ∨
    ∃ b, s.templates[k] = some b ∧ (unpinTemplate k s = setTemplate k b.unpinned s ∨
      ∃ tag, unpinTemplate k s = notify .templateFreed tag b.number [.two k] (wakeUp (setTemplate k b.unpinned s))) := by
  unfold unpinTemplate
  cases s.templates[k] with
  | none => exact .inl ⟨rfl, rfl⟩
  | some b =>
    refine .inr ⟨b, rfl, ?_⟩
    dsimp only
    split
    · rename_i hsup
      have hstays : b.unpinned = some { b with pins := b.pins - 1 } := if_neg (by simp [hsup])
      exact .inl (by rw [hstays])
    · rename_i tag hsup
      by_cases hp : b.pins ≤ 1
      · have hfree : b.unpinned = none := if_pos ⟨by rw [hsup]; rfl, hp⟩
        exact .inr ⟨tag, by rw [if_pos hp, hfree]⟩
      · have hstays : b.unpinned = some { b with pins := b.pins - 1 } := if_neg fun h => hp h.2
        exact .inl (by rw [if_neg hp, hstays])

theorem unpinTemplate_templates (k i : Fin 12) (s : State) : (unpinTemplate k s).templates[i] =
    if i = k then s.templates[i].bind TemplateBuffer.unpinned else s.templates[i] := by
  have hset : ∀ x, (setTemplate k x s).templates[i] = if i = k then x else s.templates[i] := by
    intro x
    by_cases hi : i = k
    · subst hi; simp [setTemplate]
    · rw [if_neg hi]
      have hne : k.val ≠ i.val := fun e => hi (Fin.ext e.symm)
      simp [setTemplate, hne]
  obtain ⟨hnone, h⟩ | ⟨b, hb, h | ⟨tag, h⟩⟩ := unpinTemplate_cases k s
  · rw [h]
    by_cases hi : i = k
    · subst hi; rw [if_pos rfl, hnone]; rfl
    · rw [if_neg hi]
  · rw [h, hset]
    by_cases hi : i = k
    · subst hi; rw [if_pos rfl, if_pos rfl, hb]; rfl
    · rw [if_neg hi, if_neg hi]
  · rw [h, notify_templates, wakeUp_templates, hset]
    by_cases hi : i = k
    · subst hi; rw [if_pos rfl, if_pos rfl, hb]; rfl
    · rw [if_neg hi, if_neg hi]

/-- An unpinned buffer changes the templates and posts a notice, and no more. -/
theorem unpinTemplate_sameShop (k : Fin 12) (s : State) :
    SameShop { s with templates := (unpinTemplate k s).templates } (unpinTemplate k s) := by
  obtain ⟨-, h⟩ | ⟨b, -, h | ⟨tag, h⟩⟩ := unpinTemplate_cases k s
  · rw [h]; exact .rfl' s
  · rw [h]; exact .rfl' _
  · rw [h, notify_templates]
    exact SameShop.trans (t := wakeUp (setTemplate k b.unpinned s)) ⟨rfl, rfl, rfl, rfl, rfl, rfl, rfl, rfl, rfl, rfl⟩
      (notify_sameShop ..)

theorem unpinTemplate_entries (k : Fin 12) (s : State) : (unpinTemplate k s).entries = s.entries := by
  obtain ⟨-, h⟩ | ⟨b, -, h | ⟨tag, h⟩⟩ := unpinTemplate_cases k s
  · rw [h]
  · rw [h]; rfl
  · rw [h, notify_entries]; rfl

/-- The work that a compositor has on hand. -/
def Compositor.item? : Compositor → Option WorkItem
  | .free => none
  | .waiting item _ => some item
  | .busy item _ => some item

/-- Where a page's work is abandoned, the compositor has no work, or stands with another page's (R118, R120). -/
theorem Compositor.abandon_cases (id : Nat) (c : Compositor) :
    c.abandon id = .free ∨ (c.abandon id = c ∧ ∀ item, c.item? = some item → item.page ≠ id) := by
  cases c with
  | free => exact .inl rfl
  | waiting i n | busy i n =>
    by_cases hp : i.page = id
    · exact .inl (if_pos hp)
    · exact .inr ⟨if_neg hp, fun item h => by cases h; exact hp⟩

theorem Compositor.abandon_busy {id : Nat} {c : Compositor} {item : WorkItem} {need : Nat}
    (h : c.abandon id = .busy item need) : c = .busy item need ∧ item.page ≠ id := by
  obtain hf | ⟨hs, hp⟩ := c.abandon_cases id
  · rw [hf] at h; cases h
  · obtain rfl := hs.symm.trans h
    exact ⟨rfl, hp item rfl⟩

theorem Compositor.abandon_waiting {id : Nat} {c : Compositor} {item : WorkItem} {need : Nat}
    (h : c.abandon id = .waiting item need) : c = .waiting item need ∧ item.page ≠ id := by
  obtain hf | ⟨hs, hp⟩ := c.abandon_cases id
  · rw [hf] at h; cases h
  · obtain rfl := hs.symm.trans h
    exact ⟨rfl, hp item rfl⟩

/-- The next page's entry into GATHERING changes the page queue alone (R95). -/
theorem fillGathering_sameShop (s : State) : SameShop { s with pages := (fillGathering s).pages } (fillGathering s) := by
  unfold fillGathering
  split
  · exact .rfl' s
  · split
    · exact .rfl' _
    · exact .rfl' s

theorem fillGathering_entries (s : State) : (fillGathering s).entries = s.entries := by
  unfold fillGathering
  split
  · rfl
  · split <;> rfl

theorem fillGathering_ids (s : State) : (fillGathering s).pages.map (·.id) = s.pages.map (·.id) := by
  unfold fillGathering
  split
  · rfl
  · split
    · rename_i p _
      exact map_replaceFirst_key Page.id (enterGathering s.now p) s.pages
    · rfl

/-- The CLOSING job of an id whose live page, if any, is its last. -/
def State.lastLive (s : State) (id : Nat) : Option Job := (s.job? id).filter fun j => j.state ≠ .opened && j.livePages ≤ 1

/-- A job loses a live page, and completes where it is CLOSING and that was its last (R27, R28). -/
theorem dropLivePage_cases (id : Nat) (s : State) :
    (s.job? id = none ∧ dropLivePage id s = s) ∨
    ∃ j, s.job? id = some j ∧
      ((s.lastLive id = none ∧ dropLivePage id s = setJob { j with livePages := j.livePages - 1 } s) ∨
      (s.lastLive id = some j ∧ ∃ tag items, dropLivePage id s = notify .jobClosed tag j.id items
        ((setJob { j with livePages := j.livePages - 1 } s).jobEmptied { j with livePages := j.livePages - 1 }))) := by
  unfold dropLivePage State.lastLive
  cases s.job? id with
  | none => exact .inl ⟨rfl, rfl⟩
  | some j =>
    refine .inr ⟨j, rfl, ?_⟩
    dsimp only
    cases hstate : j.state with
    | opened =>
      exact .inl ⟨Option.filter_some_neg (by simp [hstate]), completeJob_opened rfl _⟩
    | closing tag =>
      by_cases hlive : j.livePages ≤ 1
      · exact .inr ⟨Option.filter_some_pos (by simp [hstate, hlive]), tag, _,
          completeJob_completes rfl (Nat.sub_eq_zero_of_le hlive) _⟩
      · exact .inl ⟨Option.filter_some_neg (by simp [hlive]),
          completeJob_live (Nat.sub_ne_zero_of_lt (Nat.lt_of_not_le hlive)) _⟩

theorem dropLivePage_entries (id : Nat) (s : State) : (dropLivePage id s).entries =
    s.entries.filter fun e => !(s.lastLive id).any fun j => decide (j.base ≤ e.key ∧ e.key ≤ j.limit) := by
  have stands : s.lastLive id = none →
      (s.entries.filter fun e => !(s.lastLive id).any fun j => decide (j.base ≤ e.key ∧ e.key ≤ j.limit)) = s.entries := by
    intro h
    rw [h]
    exact List.filter_eq_self.2 fun _ _ => rfl
  obtain ⟨hj, h⟩ | ⟨j, -, ⟨hlast, h⟩ | ⟨hlast, tag, items, h⟩⟩ := dropLivePage_cases id s
  · rw [stands (by rw [State.lastLive, hj]; rfl), h]
  · rw [stands hlast, h]
    rfl
  · rw [h, hlast, notify_entries]
    refine List.filter_congr fun e _ => ?_
    rw [Option.any_some, Bool.decide_and]
    rfl

theorem dropLivePage_none {id : Nat} {s : State} (h : s.job? id = none) : dropLivePage id s = s := by
  unfold dropLivePage
  rw [h]

theorem dropLivePage_jobs {id : Nat} {s : State} {j : Job} (hj : s.job? id = some j) : (dropLivePage id s).jobs =
    if (s.lastLive id).isSome then removeFirst (fun k => k.id = id) s.jobs
    else replaceFirst (fun k => k.id = id) { j with livePages := j.livePages - 1 } s.jobs := by
  obtain rfl := job?_id hj
  obtain ⟨hnone, -⟩ | ⟨k, hk, hcases⟩ := dropLivePage_cases j.id s
  · rw [hj] at hnone; cases hnone
  · obtain rfl : k = j := Option.some.inj (hk.symm.trans hj)
    obtain ⟨hlast, h⟩ | ⟨hlast, tag, items, h⟩ := hcases
    · rw [h, hlast]
      rfl
    · rw [h, hlast, notify_jobs]
      exact removeFirst_replaceFirst (p := fun x : Job => x.id = k.id) (x := { k with livePages := k.livePages - 1 })
        (decide_eq_true rfl) s.jobs

theorem dropLivePage_sameShop (id : Nat) (s : State) :
    SameShop { s with jobs := (dropLivePage id s).jobs } (dropLivePage id s) := by
  obtain ⟨-, h⟩ | ⟨j, -, ⟨-, h⟩ | ⟨-, tag, items, h⟩⟩ := dropLivePage_cases id s
  · rw [h]; exact .rfl' s
  · rw [h]; exact ⟨rfl, rfl, rfl, rfl, rfl, rfl, rfl, rfl, rfl, rfl⟩
  · rw [h, notify_jobs]
    let emptied := (setJob { j with livePages := j.livePages - 1 } s).jobEmptied { j with livePages := j.livePages - 1 }
    have hempty : SameShop { s with jobs := emptied.jobs } emptied := ⟨rfl, rfl, rfl, rfl, rfl, rfl, rfl, rfl, rfl, rfl⟩
    exact hempty.trans (notify_sameShop ..)

/-! ## The release (R107) -/

/-- The state in which a page has let go of its versions and its template buffer. -/
def State.unpinnedFor (tag : Nat) (p : Page) (s : State) : State :=
  unpinTemplate p.buffer (p.named.foldl (fun s k => unpinVersion tag k.1 k.2 s) s)

theorem foldl_unpinVersion_sameShop (tag : Nat) (named : List (Nat × Nat)) (s : State) :
    SameShop s (named.foldl (fun s k => unpinVersion tag k.1 k.2 s) s) :=
  foldl_sameShop (fun s (k : Nat × Nat) => unpinVersion tag k.1 k.2 s) (fun s k => unpinVersion_sameShop tag k.1 k.2 s) named s

theorem unpinnedFor_sameShop (tag : Nat) (p : Page) (s : State) :
    SameShop { s with templates := (s.unpinnedFor tag p).templates } (s.unpinnedFor tag p) := by
  let u := p.named.foldl (fun s k => unpinVersion tag k.1 k.2 s) s
  let buffers := (s.unpinnedFor tag p).templates
  have hu : SameShop s u := foldl_unpinVersion_sameShop tag p.named s
  have hbuffers : SameShop { s with templates := buffers } { u with templates := buffers } :=
    ⟨hu.jobs, hu.storeLow, hu.lowMark, hu.store, rfl, hu.fonts, hu.pages, hu.compositor, hu.freeBuffers, hu.offer⟩
  exact hbuffers.trans (unpinTemplate_sameShop p.buffer u)

theorem unpinnedFor_entries (tag : Nat) {p : Page} {s : State} (hd : EntryKeysDistinct s) (hn : (p.named.map (·.1)).Nodup) :
    (s.unpinnedFor tag p).entries = s.entries.map (Entry.released p.named) := by
  rw [State.unpinnedFor, unpinTemplate_entries, foldl_unpinVersion tag p.named hd hn]

theorem unpinnedFor_templates (tag : Nat) (p : Page) (s : State) (i : Fin 12) : (s.unpinnedFor tag p).templates[i] =
    if i = p.buffer then s.templates[i].bind TemplateBuffer.unpinned else s.templates[i] := by
  rw [State.unpinnedFor, unpinTemplate_templates, (foldl_unpinVersion_sameShop tag p.named s).templates]

/-- The state in which a page's record has left, its job has one live page less, and the next page has entered GATHERING. -/
def State.dismissed (p : Page) (s : State) : State := fillGathering (wakeUp (dropLivePage p.jobId (removePage p s)))

theorem releasePage_eq {s : State} {id : Nat} {p : Page} (tag : Nat) (announce : Page → State → State)
    (hp : s.page? id = some p) : releasePage tag id announce s = ((announce p s).unpinnedFor tag p).dismissed p := by
  unfold releasePage
  rw [hp]
  rfl

section

variable (p : Page) (s : State)

theorem dismissed_store : (s.dismissed p).store = s.store :=
  (fillGathering_sameShop _).store.trans (dropLivePage_sameShop p.jobId (removePage p s)).store

theorem dismissed_fonts : (s.dismissed p).fonts = s.fonts :=
  (fillGathering_sameShop _).fonts.trans (dropLivePage_sameShop p.jobId (removePage p s)).fonts

theorem dismissed_templates : (s.dismissed p).templates = s.templates :=
  (fillGathering_sameShop _).templates.trans (dropLivePage_sameShop p.jobId (removePage p s)).templates

theorem dismissed_compositor : (s.dismissed p).compositor = s.compositor.abandon p.id :=
  (fillGathering_sameShop _).compositor.trans (dropLivePage_sameShop p.jobId (removePage p s)).compositor

theorem dismissed_buffers : (s.dismissed p).freeBuffers.length = s.freeBuffers.length + p.held := by
  have h : (s.dismissed p).freeBuffers = (freeBandBuffers (p.bands.flatMap (·.buffers)) s).freeBuffers :=
    (fillGathering_sameShop _).freeBuffers.trans (dropLivePage_sameShop p.jobId (removePage p s)).freeBuffers
  rw [h, freeBandBuffers_length, held_flatMap]

theorem dismissed_ids : (s.dismissed p).pages.map (·.id) = (s.pages.map (·.id)).erase p.id := by
  have h : (wakeUp (dropLivePage p.jobId (removePage p s))).pages = removeFirst (·.id = p.id) s.pages :=
    (dropLivePage_sameShop p.jobId (removePage p s)).pages
  rw [State.dismissed, fillGathering_ids, h]
  exact map_removeFirst_key Page.id p.id s.pages

theorem dismissed_jobs : (s.dismissed p).jobs = (dropLivePage p.jobId (removePage p s)).jobs := (fillGathering_sameShop _).jobs

theorem dismissed_entries : (s.dismissed p).entries =
    s.entries.filter fun e => !(s.lastLive p.jobId).any fun j => decide (j.base ≤ e.key ∧ e.key ≤ j.limit) :=
  (fillGathering_entries _).trans (dropLivePage_entries p.jobId (removePage p s))

end

theorem dismissed_jobs_none {p : Page} {s : State} (h : s.job? p.jobId = none) : (s.dismissed p).jobs = s.jobs := by
  rw [dismissed_jobs, dropLivePage_none (s := removePage p s) h]
  rfl

theorem dismissed_jobs_some {p : Page} {s : State} {j : Job} (h : s.job? p.jobId = some j) : (s.dismissed p).jobs =
    if (s.lastLive p.jobId).isSome then removeFirst (fun k => k.id = p.jobId) s.jobs
    else replaceFirst (fun k => k.id = p.jobId) { j with livePages := j.livePages - 1 } s.jobs :=
  (dismissed_jobs p s).trans (dropLivePage_jobs (s := removePage p s) h)

theorem lastLive_congr {s t : State} (h : t.jobs = s.jobs) (id : Nat) : t.lastLive id = s.lastLive id := by
  rw [State.lastLive, State.lastLive, job?_congr h]

/-- Settles O24: the pins of the composition start, and the release step by step. -/
theorem pageReleased : Obligations.PageReleased := by
  refine ⟨fun p b s hb hd hc => compositionStart_eq hb hd hc, ?_⟩
  intro tag id code noticeTag subject detail p s _ hp t lastLive
  obtain rfl : p.id = id := page?_id hp
  have hlink : SameLink s t := releasePage_sameLink tag p.id _ s fun p s => notify_sameLink ..
  have ht : t = _ := releasePage_eq tag (fun p => notify code (noticeTag p) (subject p) (detail p)) hp
  have hlast : lastLive = s.lastLive p.jobId := rfl
  generalize ha : notify code (noticeTag p) (subject p) (detail p) s = a at ht
  have announced : SameShop s a := ha ▸ notify_sameShop ..
  have hentries : a.entries = s.entries := ha ▸ notify_entries ..
  have unpinned := unpinnedFor_sameShop tag p a
  have hjobs : (a.unpinnedFor tag p).jobs = s.jobs := unpinned.jobs.trans announced.jobs
  have hcompositor : t.compositor = s.compositor.abandon p.id := by
    rw [ht, dismissed_compositor, unpinned.compositor, announced.compositor]
  clear_value t lastLive
  refine ⟨fun hd hn => ?_, fun i => ?_, ?_, ?_, ?_, fun item need h => ?_, fun item need h => ?_, hlink.1, hlink.2, ?_, ?_⟩
  · have hda : EntryKeysDistinct a := by
      unfold EntryKeysDistinct
      rw [hentries]
      exact hd
    rw [ht, dismissed_entries, unpinnedFor_entries tag hda hn, hentries, lastLive_congr hjobs, ← hlast]
    rfl
  · rw [ht, dismissed_templates, unpinnedFor_templates, announced.templates]
    cases s.templates[i] <;> rfl
  · rw [ht]
    cases hj : s.job? p.jobId with
    | none => rw [dismissed_jobs_none ((job?_congr hjobs _).trans hj), hjobs]
    | some j => rw [dismissed_jobs_some ((job?_congr hjobs _).trans hj), lastLive_congr hjobs, hjobs, ← hlast]
  · rw [ht, dismissed_ids, unpinned.pages, announced.pages]
  · rw [ht, dismissed_buffers, unpinned.freeBuffers, announced.freeBuffers]
  · exact Compositor.abandon_busy (hcompositor ▸ h)
  · exact Compositor.abandon_waiting (hcompositor ▸ h)
  · rw [ht, dismissed_store, unpinned.store, announced.store]
  · rw [ht, dismissed_fonts, unpinned.fonts, announced.fonts]

end Sys2Proof.Machine
end

section
/-! PROOF. The frame store: its canonical form stays through every step, and its bytes read back (3.1, R41, R133). -/

namespace Sys2Proof.Machine

/-! ## The canonical form (log entry 6) -/

theorem Move.keeps_storeForm {lim : Nat} {s t : State} (m : Move lim s t) (h : StoreCanonical s) : StoreCanonical t := by
  cases m
  case store places bytes => exact writePieces_wf places bytes h
  case masterReset => exact storeWf_nil
  all_goals exact h

/-- Settles O50: the moves of a step keep the canonical form; the one move that writes is a write over pieces. -/
theorem stepKeepsStoreForm : Obligations.StepKeepsStoreForm := by
  intro s t hs h
  obtain ⟨lim, hl⟩ := exists_frameWithin s.pending
  exact (step_moves s t hl h).keeps (fun _ _ m => m.keeps_storeForm) hs

/-! ## Reading one byte -/

theorem readByte_absent {m : List Host.Cell} {x : Nat} (h : ∀ c ∈ m, c.1 ≠ x) : readByte m x = unlistedByte := by
  have hnone : m.find? (·.1 = x) = none := List.find?_eq_none.2 fun c hc => by simpa using h c hc
  rw [readByte, hnone]

theorem readByte_cons (c : Host.Cell) (rest : List Host.Cell) (x : Nat) :
    readByte (c :: rest) x = if c.1 = x then c.2 else readByte rest x := by
  by_cases h : c.1 = x
  · simp only [readByte, List.find?_cons, h, decide_true, if_true]
  · simp only [readByte, List.find?_cons, h, decide_false, if_false]

theorem readByte_append_left {l r : List Host.Cell} {x : Nat} (h : ∀ c ∈ r, c.1 ≠ x) :
    readByte (l ++ r) x = readByte l x := by
  induction l with
  | nil => exact readByte_absent h
  | cons c rest ih => rw [List.cons_append, readByte_cons, readByte_cons, ih]

theorem readByte_append_right {l r : List Host.Cell} {x : Nat} (h : ∀ c ∈ l, c.1 ≠ x) :
    readByte (l ++ r) x = readByte r x := by
  induction l with
  | nil => rfl
  | cons c rest ih =>
    rw [List.cons_append, readByte_cons, if_neg (h c List.mem_cons_self), ih fun d hd => h d (List.mem_cons_of_mem c hd)]

/-- Cells of other addresses do not matter. -/
theorem readByte_filter {p : Host.Cell → Bool} {x : Nat} (hp : ∀ c, c.1 = x → p c = true) (m : List Host.Cell) :
    readByte (m.filter p) x = readByte m x := by
  induction m with
  | nil => rfl
  | cons c rest ih =>
    by_cases hc : p c = true
    · rw [List.filter_cons_of_pos hc, readByte_cons, readByte_cons, ih]
    · rw [List.filter_cons_of_neg hc, readByte_cons, if_neg fun e => hc (hp c e), ih]

/-- The cells that list bytes read as those bytes, the unlisted ones too. -/
theorem readByte_cellsOf (bytes : List Byte) (a i : Nat) : readByte (cellsOf a bytes) (a + i) = (bytes[i]?).getD 0 := by
  induction bytes generalizing a i with
  | nil => rfl
  | cons b rest ih =>
    have later : ∀ c ∈ cellsOf (a + 1) rest, c.1 ≠ a := fun c hc => by
      have := cellsOf_addresses rest (a + 1) c hc
      omega
    cases i with
    | zero =>
      rw [Nat.add_zero]
      by_cases hb : b = unlistedByte
      · rw [cellsOf, if_pos hb, readByte_absent later]
        exact hb.symm
      · rw [cellsOf, if_neg hb, readByte_cons, if_pos rfl]
        rfl
    | succ i =>
      have hrest : readByte (cellsOf (a + 1) rest) (a + (i + 1)) = (rest[i]?).getD 0 := by
        rw [← ih (a + 1) i]
        congr 1
        omega
      by_cases hb : b = unlistedByte
      · rw [cellsOf, if_pos hb, hrest, List.getElem?_cons_succ]
      · rw [cellsOf, if_neg hb, readByte_cons, if_neg (by dsimp only; omega), hrest, List.getElem?_cons_succ]

/-! ## A write, read back (R41, R133) -/

section

variable (m : List Host.Cell) (a : Nat) (bytes : List Byte)

theorem readByte_writeBytes_before {x : Nat} (h : x < a) : readByte (writeBytes m a bytes) x = readByte m x := by
  rw [writeBytes, readByte_append_left, readByte_append_left, readByte_filter]
  · exact fun c hc => decide_eq_true (hc ▸ h)
  · intro c hc
    have := cellsOf_addresses bytes a c hc
    omega
  · intro c hc
    have := of_decide_eq_true (List.mem_filter.1 hc).2
    omega

theorem readByte_writeBytes_inside {i : Nat} (h : i < bytes.length) :
    readByte (writeBytes m a bytes) (a + i) = (bytes[i]?).getD 0 := by
  rw [writeBytes, readByte_append_left, readByte_append_right, readByte_cellsOf]
  · intro c hc
    have := of_decide_eq_true (List.mem_filter.1 hc).2
    omega
  · intro c hc
    have := of_decide_eq_true (List.mem_filter.1 hc).2
    omega

theorem readByte_writeBytes_after {x : Nat} (h : a + bytes.length ≤ x) : readByte (writeBytes m a bytes) x = readByte m x := by
  rw [writeBytes, readByte_append_right, readByte_filter]
  · exact fun c hc => decide_eq_true (hc ▸ h)
  · intro c hc
    rcases List.mem_append.1 hc with hc | hc
    · have := of_decide_eq_true (List.mem_filter.1 hc).2
      omega
    · have := cellsOf_addresses bytes a c hc
      omega

end

theorem readByte_writeBytes (m : List Host.Cell) (a : Nat) (bytes : List Byte) (x : Nat) :
    readByte (writeBytes m a bytes) x =
      if a ≤ x ∧ x < a + bytes.length then (bytes[x - a]?).getD 0 else readByte m x := by
  by_cases hlow : a ≤ x
  · obtain ⟨i, rfl⟩ := Nat.exists_eq_add_of_le hlow
    by_cases hhigh : i < bytes.length
    · rw [if_pos (by omega), Nat.add_sub_cancel_left, readByte_writeBytes_inside m a bytes hhigh]
    · rw [if_neg (by omega), readByte_writeBytes_after m a bytes (by omega)]
  · rw [if_neg (by omega), readByte_writeBytes_before m a bytes (by omega)]

/-! ## Reading a run of addresses -/

/-- The cells below an address do not matter to the reads from it on. -/
theorem readByte_dropWhile {a x : Nat} (h : a ≤ x) (m : List Host.Cell) :
    readByte (m.dropWhile (fun c => c.1 < a)) x = readByte m x := by
  induction m with
  | nil => rfl
  | cons c rest ih =>
    by_cases hc : c.1 < a
    · simp only [List.dropWhile_cons, hc, decide_true, if_true]
      rw [ih, readByte_cons, if_neg (by omega)]
    · simp only [List.dropWhile_cons, hc, decide_false, Bool.false_eq_true, if_false]

/-- On cells of rising addresses, the first of which is not below `a`, reading the address `a` looks at the first alone, and
reading further looks at it only where it is not at `a`. -/
theorem readFrom_eq_map (n a : Nat) (m : List Host.Cell) (h : m.Pairwise fun c d => c.1 < d.1) :
    readFrom n a m = (List.range' a n).map (readByte m) := by
  induction n generalizing a m with
  | zero => rfl
  | succ n ih =>
    have hdrop : ∀ x, a ≤ x → readByte m x = readByte (m.dropWhile (fun c => c.1 < a)) x :=
      fun x hx => (readByte_dropWhile hx m).symm
    have hmap : ∀ {l : List Host.Cell}, (∀ x, a + 1 ≤ x → readByte m x = readByte l x) →
        (List.range' (a + 1) n).map (readByte m) = (List.range' (a + 1) n).map (readByte l) :=
      fun hl => List.map_congr_left fun x hx => hl x (List.mem_range'_1.1 hx).1
    have hrising := h.sublist (List.dropWhile_sublist (fun c : Host.Cell => decide (c.1 < a)))
    have hfirst : ∀ c rest, m.dropWhile (fun c => c.1 < a) = c :: rest → a ≤ c.1 := fun c rest e => by
      have := List.head?_dropWhile_not (fun c : Host.Cell => decide (c.1 < a)) m
      rw [e] at this
      simpa using this
    rw [readFrom, List.range'_succ, List.map_cons]
    cases hm : m.dropWhile (fun c => c.1 < a) with
    | nil =>
      rw [hm] at hdrop
      dsimp only
      rw [hdrop a (Nat.le_refl a), ih (a + 1) [] List.Pairwise.nil, hmap fun x hx => hdrop x (by omega)]
      rfl
    | cons c rest =>
      rw [hm] at hdrop hrising
      have hle := hfirst c rest hm
      have habove : ∀ d ∈ rest, c.1 < d.1 := (List.pairwise_cons.1 hrising).1
      dsimp only
      by_cases hc : c.1 = a
      · rw [if_pos hc, hdrop a (Nat.le_refl a), readByte_cons, if_pos hc, ih (a + 1) rest (List.pairwise_cons.1 hrising).2,
          hmap (l := rest)]
        intro x hx
        rw [hdrop x (by omega), readByte_cons, if_neg (by omega)]
      · rw [if_neg hc, hdrop a (Nat.le_refl a), ih (a + 1) _ hrising, hmap fun x hx => hdrop x (by omega), readByte_absent]
        intro d hd
        rcases List.mem_cons.1 hd with rfl | hd
        · exact hc
        · have := habove d hd
          omega

/-- Settles O48: a write read back address by address, and a run of reads as the reads one by one. -/
theorem storeReadsBack : Obligations.StoreReadsBack :=
  ⟨fun m a bytes x _ => readByte_writeBytes m a bytes x, fun n a m h => readFrom_eq_map n a m ((storeWf_iff m).1 h).1⟩

end Sys2Proof.Machine
end

section
/-! PROOF. The block pool: its balance through every step, and the store low state that follows its free count (R40, R55, R56,
R60). -/

namespace Sys2Proof.Machine

/-! ## The balance (R40, R60) -/

/-- A sum over a list of which the first member that meets a test is replaced. -/
theorem sum_map_replaceFirst {α : Type} {p : α → Bool} (f : α → Nat) (x : α) {y : α} {l : List α} (hy : l.find? p = some y) :
    ((replaceFirst p x l).map f).sum + f y = (l.map f).sum + f x := by
  induction l with
  | nil => cases hy
  | cons a rest ih =>
    by_cases ha : p a = true
    · rw [List.find?_cons_of_pos ha, Option.some.injEq] at hy
      subst hy
      rw [replaceFirst, if_pos ha, List.map_cons, List.map_cons, List.sum_cons, List.sum_cons]
      omega
    · rw [List.find?_cons_of_neg ha] at hy
      have := ih hy
      rw [replaceFirst, if_neg ha, List.map_cons, List.map_cons, List.sum_cons, List.sum_cons]
      omega

theorem sum_map_filter_not {α : Type} (p : α → Bool) (f : α → Nat) (l : List α) :
    ((l.filter p).map f).sum + ((l.filter fun a => !p a).map f).sum = (l.map f).sum := by
  rw [← List.sum_append, ← List.map_append]
  exact ((List.filter_append_perm p l).map f).sum_eq

theorem Move.keeps_blocks {lim : Nat} {s t : State} (m : Move lim s t) (h : BlocksBalance s) : BlocksBalance t := by
  have full : ∀ u : State, u.freeBlocks = [{ first := 0, count := Config.blockCount }] → u.entries = [] → BlocksBalance u := by
    intro u hfree hentries
    rw [BlocksBalance, State.freeCount, hfree, hentries]
    rfl
  unfold BlocksBalance State.freeCount at h
  cases m
  case closeJob j free hb =>
    have := sum_map_filter_not (fun e : Entry => j.holds e.key) Entry.held s.entries
    simp only [BlocksBalance, State.freeCount]
    omega
  case newEntry key jobId hk hs =>
    have hempty : (Machine.newEntry key jobId).held = 0 := rfl
    simp only [BlocksBalance, State.freeCount, List.map_append, List.map_singleton, List.sum_append, List.sum_singleton, hempty]
    exact h
  case entry e e' free he hstep hb =>
    have := sum_map_replaceFirst Entry.held e' he
    simp only [BlocksBalance, State.freeCount, hstep.key]
    omega
  case emptyTables => exact full _ rfl rfl
  case masterReset => exact full _ rfl rfl
  all_goals exact h

/-- Settles O57: the moves of a step keep the balance; blocks pass between the pool and the versions of an entry or of a closed
job's window. -/
theorem stepKeepsBlocks : Obligations.StepKeepsBlocks := by
  intro s t hs h
  obtain ⟨lim, hl⟩ := exists_frameWithin s.pending
  exact (step_moves s t hl h).keeps (fun _ _ m => m.keeps_blocks) hs

end Sys2Proof.Machine
end

section
/-! PROOF. The store low state agrees with the free count after every step (R55, R56): whatever changes the pool or the mark is
followed, in the same event, by a judging. -/

namespace Sys2Proof.Machine

/-! ## What leaves the pool, the mark and the store low state -/

/-- Two states with the same free list, store low state and mark. -/
structure SamePool (s t : State) : Prop where
  free : t.freeBlocks = s.freeBlocks
  low : t.storeLow = s.storeLow
  mark : t.lowMark = s.lowMark

theorem SamePool.rfl' (s : State) : SamePool s s := ⟨rfl, rfl, rfl⟩

theorem SamePool.trans {s t u : State} (h : SamePool s t) (k : SamePool t u) : SamePool s u :=
  ⟨k.free.trans h.free, k.low.trans h.low, k.mark.trans h.mark⟩

theorem SamePool.judged {s t : State} (h : SamePool s t) (hs : StoreJudged s) : StoreJudged t :=
  storeJudged_of hs h.free h.low h.mark

theorem notify_samePool (code : NoticeCode) (tag subject : Nat) (detail : List Item) (s : State) :
    SamePool s (notify code tag subject detail s) := ⟨notify_freeBlocks .., notify_storeLow .., notify_lowMark ..⟩

theorem choose_samePool {α : Type} {l : List α} {s t : State} {a : α} (h : choose l s = some (a, t)) : SamePool s t := by
  unfold choose at h
  split at h
  · cases h
  · cases h; exact .rfl' s
  · cases h; exact ⟨rfl, rfl, rfl⟩

theorem pinVersion_samePool (key : Nat) (s : State) : SamePool s (pinVersion key s) := by
  unfold pinVersion
  split
  · exact .rfl' s
  · split <;> exact ⟨rfl, rfl, rfl⟩

theorem foldl_pinVersion_samePool (named : List (Nat × Nat)) (s : State) :
    SamePool s (named.foldl (fun s k => pinVersion k.1 s) s) := by
  induction named generalizing s with
  | nil => exact .rfl' s
  | cons k rest ih => exact (pinVersion_samePool k.1 s).trans (ih _)

theorem fillGathering_samePool (s : State) : SamePool s (fillGathering s) := by
  unfold fillGathering
  split
  · exact .rfl' s
  · split <;> exact ⟨rfl, rfl, rfl⟩

theorem compositionStart_samePool (p : Page) (s : State) : SamePool s (compositionStart p s) := by
  unfold compositionStart
  split
  · exact .rfl' s
  · have pinned := foldl_pinVersion_samePool ((capture s ‹_› p).cells.filterMap CastRecord.pinned) s
    have changed : ∀ (q : Page) (u : State), SamePool u (setPage q u) := fun _ _ => ⟨rfl, rfl, rfl⟩
    exact ((pinned.trans (changed _ _)).trans (notify_samePool ..)).trans (fillGathering_samePool _)

theorem dropBand_samePool (id b : Nat) (s : State) : SamePool s (dropBand id b s) := by
  unfold dropBand
  split
  · exact .rfl' s
  · split <;> exact ⟨rfl, rfl, rfl⟩

theorem reclaimUntil_samePool (need : Nat) (l : List (Nat × Nat)) (s : State) : SamePool s (reclaimUntil need l s) := by
  induction l generalizing s with
  | nil => exact .rfl' s
  | cons k rest ih =>
    unfold reclaimUntil
    split
    · exact .rfl' s
    · exact (dropBand_samePool _ _ s).trans (ih _)

theorem beginBand_samePool (item : WorkItem) (need : Nat) (s : State) : SamePool s (beginBand item need s) := by
  unfold beginBand modPage
  dsimp only
  split <;> exact ⟨rfl, rfl, rfl⟩

theorem allocate_samePool (item : WorkItem) (s : State) : SamePool s (allocate item s) := by
  unfold allocate
  split
  · exact ⟨rfl, rfl, rfl⟩
  · dsimp only
    split
    · exact beginBand_samePool ..
    · split
      · exact ⟨rfl, rfl, rfl⟩
      · exact (reclaimUntil_samePool ..).trans (beginBand_samePool ..)

theorem selectBand_samePool (s : State) : SamePool s (selectBand s) := by
  unfold selectBand
  split
  · exact allocate_samePool ..
  · exact ⟨rfl, rfl, rfl⟩

theorem selectWork_samePool (s : State) : SamePool s (selectWork s) := by
  unfold selectWork
  split
  · exact .rfl' s
  · split
    · exact allocate_samePool ..
    · split
      · exact (compositionStart_samePool ..).trans (selectBand_samePool _)
      · exact ⟨rfl, rfl, rfl⟩

theorem offerRule_samePool (s : State) : SamePool s (offerRule s) := by
  unfold offerRule
  split
  · split
    · split
      · exact ⟨notify_freeBlocks .., notify_storeLow .., notify_lowMark ..⟩
      · exact .rfl' s
    · exact .rfl' s
  · exact .rfl' s

/-- The offer rule and the selection pin versions, and free or reserve none. -/
theorem pump_samePool (s : State) : SamePool s (pump s) := (offerRule_samePool s).trans (selectWork_samePool _)

theorem discardSkipped_samePool (ch : Chan) (b : List Byte) (s : State) : SamePool s (discardSkipped ch b s) := by
  unfold discardSkipped
  dsimp only
  split <;> exact ⟨dropFront_freeBlocks .., dropFront_storeLow .., dropFront_lowMark ..⟩

/-! ## Sound states -/

/-- The mark is within the pool (R56) and the store low state has been judged on the free count (R55). -/
structure StoreSound (s : State) : Prop where
  mark : s.lowMark ≤ Config.blockCount
  judged : StoreJudged s

theorem SamePool.sound {s t : State} (h : SamePool s t) (hs : StoreSound s) : StoreSound t :=
  ⟨h.mark ▸ hs.mark, h.judged hs.judged⟩

variable {lim : Nat}

theorem Move.keeps_mark {s t : State} (m : Move lim s t) (h : s.lowMark ≤ Config.blockCount) :
    t.lowMark ≤ Config.blockCount := by
  cases m
  case lowMark v hv => exact hv
  case masterReset => exact reset_settingsLegal.lowMark
  all_goals exact h

theorem Moves.keeps_mark {s t : State} (m : Moves lim s t) (h : s.lowMark ≤ Config.blockCount) :
    t.lowMark ≤ Config.blockCount := m.keeps (fun _ _ m => m.keeps_mark) h

/-- A run of moves that ends with a judging leaves a sound state. -/
theorem Moves.sound_judgeStore {s u : State} {tag : Nat} (m : Moves lim s (judgeStore tag u))
    (h : s.lowMark ≤ Config.blockCount) : StoreSound (judgeStore tag u) := by
  have hmark := m.keeps_mark h
  exact ⟨hmark, storeJudged_judgeStore tag (judgeStore_lowMark tag u ▸ hmark)⟩

/-! ## What keeps a state sound -/

/-- A dispatch ends with a judging, or it is a record discarded by a skip, or nothing. -/
theorem dispatchFront_cases (ch : Chan) (s : State) :
    (∃ tag u, dispatchFront ch s = judgeStore tag u) ∨ SamePool s (dispatchFront ch s) := by
  unfold dispatchFront
  split
  · exact .inr (.rfl' s)
  · split
    · exact .inl ⟨0, _, rfl⟩
    · unfold presentRecord
      split
      · exact .inl ⟨_, _, rfl⟩
      · split
        · exact .inr (discardSkipped_samePool ..)
        · exact .inl ⟨_, _, rfl⟩

theorem dispatchFront_sound (ch : Chan) {s : State} (h : StoreSound s) : StoreSound (dispatchFront ch s) := by
  obtain ⟨tag, u, hu⟩ | same := dispatchFront_cases ch s
  · have m := dispatchFront_moves (lim := 0) ch s
    rw [hu] at m ⊢
    exact m.sound_judgeStore h.mark
  · exact same.sound h

theorem examineEntry_sound (acc : List Resource × State) (ch : Chan) (h : StoreSound acc.2) :
    StoreSound (examineEntry acc ch).2 := by
  obtain ⟨noted, s⟩ := acc
  have concluded : StoreSound (pump (conclude ch s.chans[ch].front (judgeRecord ch s.chans[ch].front s) s)) :=
    (pump_samePool _).sound ((conclude_moves (lim := 0) ch s.chans[ch].front _ s (judgeRecord_does ch _ s front_nonempty)
      front_nonempty).sound_judgeStore h.mark)
  unfold examineEntry
  dsimp only
  split
  · exact h
  · split
    · exact h
    · split
      · exact concluded
      · exact concluded

theorem examine_sound {s : State} (h : StoreSound s) : StoreSound (examine s) := by
  have walk : ∀ (l : List Chan) (acc : List Resource × State), StoreSound acc.2 → StoreSound (l.foldl examineEntry acc).2 := by
    intro l
    induction l with
    | nil => exact fun _ hacc => hacc
    | cons ch rest ih => exact fun acc hacc => ih _ (examineEntry_sound acc ch hacc)
  exact walk _ ([], { s with wake := false }) ⟨h.mark, h.judged⟩

theorem runTask_sound (t : Task) {s : State} (h : StoreSound s) : StoreSound (runTask t s) := by
  cases t with
  | examination => exact examine_sound h
  | dispatch ch => exact (pump_samePool _).sound (dispatchFront_sound ch h)

theorem settleFor_sound (n : Nat) {s : State} (h : StoreSound s) : StoreSound (settleFor n s) := by
  induction n generalizing s with
  | zero => exact ⟨h.mark, h.judged⟩
  | succ n ih =>
    unfold settleFor
    split
    · exact ⟨h.mark, h.judged⟩
    · rename_i t u hu
      exact ih (runTask_sound t ((choose_samePool hu).sound h))

/-! ## An event judges the store (R55) -/

/-- Whatever an event does to the pool and the mark, its state is sound once what follows it has come about. -/
theorem event_sound {f : State → State} {s : State} (m : Moves lim s (f s)) (h : StoreSound s) : StoreSound (event f s) :=
  settleFor_sound _ ((pump_samePool _).sound (Moves.sound_judgeStore (m.trans (judgeStore_moves 0 _)) h.mark))

theorem deliver_sound (ch : Chan) (bytes : List Byte) {s : State} (h : StoreSound s) : StoreSound (deliver ch bytes s) := by
  unfold deliver
  generalize pieces bytes.length bytes = l
  induction l generalizing s with
  | nil => exact h
  | cons p rest ih => exact ih (event_sound (frameArrives_moves (lim := 0) ch false p s nofun) h)

theorem runDue_sound (d : Due) {s : State} (h : StoreSound s) : StoreSound (runDue d s) := by
  cases d with
  | stall ch => exact event_sound (stallExpiry_moves (lim := 0) ch s) h
  | hold => exact event_sound (holdEnds_moves (lim := 0) s) h
  | release => exact event_sound (releaseRule_moves (lim := 0) s) h

theorem tick_sound {s : State} (h : StoreSound s) : StoreSound (tick s) := by
  unfold tick
  dsimp only
  split
  · exact ⟨h.mark, h.judged⟩
  · split
    · rename_i d u hu
      exact runDue_sound d ((choose_samePool hu).sound ⟨h.mark, h.judged⟩)
    · exact ⟨h.mark, h.judged⟩

theorem whenUp_sound {f : State → State} {s : State} (hf : ∀ u, StoreSound u → StoreSound (f u)) (h : StoreSound s) :
    StoreSound (whenUp f s) := by
  unfold whenUp
  split
  · exact ⟨h.mark, h.judged⟩
  · exact hf _ ⟨h.mark, h.judged⟩

/-- Every command keeps a state sound. -/
theorem exec_sound (c : Instr) {s t : State} (hs : StoreSound s) (h : exec c s = .next t) : StoreSound t := by
  have record : ∀ {ch : Chan} {b : List Byte}, exec c s = .next (whenUp (deliver ch b) s) → StoreSound t := by
    intro ch b e
    cases h.symm.trans e
    exact whenUp_sound (fun _ => deliver_sound ch b) hs
  have up : ∀ (lim : Nat) {f : State → State}, exec c s = .next (whenUp (event f) s) → (∀ u, Moves lim u (f u)) →
      StoreSound t := by
    intro lim f e m
    cases h.symm.trans e
    exact whenUp_sound (fun u => event_sound (m u)) hs
  cases c with
  | linkFrame ch sync payload =>
    exact up payload.length rfl fun u => frameArrives_moves ch sync payload u fun _ => Nat.le_refl _
  | masterReset => cases h; exact ⟨reset_settingsLegal.lowMark, reset_storeJudged⟩
  | resetInputHigh =>
    cases h
    unfold leaveReset
    split <;> exact ⟨hs.mark, hs.judged⟩
  | start id => exact up 0 rfl (pressStart_moves id)
  | demand => exact up 0 rfl pressDemand_moves
  | done id => exact up 0 rfl (pressDone_moves id)
  | fault id => exact up 0 rfl (pressFault_moves id)
  | restart => exact up 0 rfl pressRestart_moves
  | badMessage type id => exact up 0 rfl (headProtocol_moves type id .badMessage)
  | bandCompositionComplete => exact up 0 rfl compositionComplete_moves
  | bandSendingEnd => exact up 0 rfl sendingEnd_moves
  | returnTransferEnd => exact up 0 rfl transferEnd_moves
  | stallLimitExpiry ch => exact up 0 rfl (stallExpiry_moves ch)
  | holdExpiry => exact up 0 rfl holdEnds_moves
  | gateExpiry cls => exact up 0 rfl (gateExpires_moves cls)
  | _ => exact record rfl

/-- Settles O60: every step leaves a sound state sound. -/
theorem stepJudgesStore : Obligations.StepJudgesStore := by
  intro s t hsettings hjudged h
  have hs : StoreSound s := ⟨hsettings.lowMark, hjudged⟩
  unfold step at h
  split at h
  · cases h
    exact (tick_sound hs).judged
  · rename_i c rest _
    exact (exec_sound c (s := { s with pending := rest }) ⟨hs.mark, hs.judged⟩ h).judged

end Sys2Proof.Machine
end

section
/-! PROOF. The roles at a good END, and PORTRAIT_STRIP and PORTRAIT_END on a channel without a skip (R41, R48 to R53, R65 to
R69). -/

namespace Sys2Proof.Machine

/-! ## The roles at a good END (R51, R52) -/

section

variable {e : Entry} {v c r : Version}

theorem roleChange_first (hc : e.current = none) :
    roleChange e v = .promoted { e with incoming := none, current := some v } [] none := by
  rw [roleChange, hc]

theorem roleChange_replaces (hc : e.current = some c) (hp : c.pins = 0) :
    roleChange e v = .promoted { e with incoming := none, current := some v } c.blocks (some (c.number, false)) := by
  rw [roleChange, hc]
  exact if_pos hp

theorem roleChange_retires (hc : e.current = some c) (hp : 0 < c.pins) (hr : e.retiring = none) :
    roleChange e v = .promoted { e with incoming := none, current := some v, retiring := some c } []
      (some (c.number, true)) := by
  rw [roleChange, hc, hr]
  exact if_neg (Nat.ne_of_gt hp)

theorem roleChange_awaits (hc : e.current = some c) (hp : 0 < c.pins) (hr : e.retiring = some r) :
    roleChange e v = .awaits { e with incoming := some v } := by
  rw [roleChange, hc, hr]
  exact if_neg (Nat.ne_of_gt hp)

theorem takeRole_promoted {e' : Entry} {freed : List Run} {replaced : Option (Nat × Bool)}
    (h : roleChange e v = .promoted e' freed replaced) (s : State) :
    takeRole e v s = reportReady e.key v replaced (returnBlocks freed (setEntry e' s)) := by
  rw [takeRole, h]

theorem takeRole_awaits {e' : Entry} (h : roleChange e v = .awaits e') (s : State) : takeRole e v s = setEntry e' s := by
  rw [takeRole, h]

end

theorem flagItem_one (f : Bool) : flagItem [f] = .two (if f then 1 else 0) := by
  cases f <;> rfl

theorem reportReady_first {v : Version} {mean gain tag : Nat} (hv : v.state = .complete mean gain tag) (key : Nat) (s : State) :
    reportReady key v none s = notify .portraitReady tag key
      [.two v.number, .two mean, .two gain, .two (if v.fixedGain.isSome then 1 else 0)] s := by
  simp only [reportReady, hv, flagItem_one]

theorem reportReady_replacing {v : Version} {mean gain tag : Nat} (hv : v.state = .complete mean gain tag)
    (key old : Nat) (retiring : Bool) (s : State) :
    reportReady key v (some (old, retiring)) s =
      notify .retakeReady tag key [.two v.number, .two old, .two (if retiring then 2 else 1)] (reportReady key v none s) := by
  simp only [reportReady, hv]

/-- Settles O17: the role change of each of the four rows, and its notices. -/
theorem roleTaken : Obligations.RoleTaken := by
  intro e v mean gain tag s hv _ ready
  have first := reportReady_first hv e.key
  have replacing := reportReady_replacing hv e.key
  refine ⟨fun hc => ?_, fun c hc hp => ?_, fun c hc hp hr => ?_, fun c r hc hp hr => ?_⟩
  · rw [takeRole_promoted (roleChange_first hc), first]
    rfl
  · rw [takeRole_promoted (roleChange_replaces hc hp), replacing, first]
    rfl
  · rw [takeRole_promoted (roleChange_retires hc hp hr), replacing, first]
    rfl
  · exact takeRole_awaits (roleChange_awaits hc hp hr) s

/-! ## A record in a channel's buffer takes no part in a portrait's end (R51, R53) -/

theorem reportReady_modChan (key : Nat) (v : Version) (replaced : Option (Nat × Bool)) (ch : Chan) (f : Channel → Channel)
    (s : State) : reportReady key v replaced (modChan ch f s) = modChan ch f (reportReady key v replaced s) := by
  unfold reportReady
  split
  · rfl
  · dsimp only
    rw [notify_modChan]
    split
    · rfl
    · exact notify_modChan ..

theorem takeRole_modChan (e : Entry) (v : Version) (ch : Chan) (f : Channel → Channel) (s : State) :
    takeRole e v (modChan ch f s) = modChan ch f (takeRole e v s) := by
  cases h : roleChange e v with
  | awaits e' =>
    rw [takeRole_awaits h, takeRole_awaits h]
    rfl
  | promoted e' freed replaced =>
    rw [takeRole_promoted h, takeRole_promoted h]
    exact reportReady_modChan e.key v replaced ch f (returnBlocks freed (setEntry e' s))

theorem failOpen_held (ch : Chan) (key tag found : Nat) (after : Binding) (b : List Byte) (s : State) :
    failOpen ch key tag found after (s.holding ch b) = (failOpen ch key tag found after s).holding ch b := by
  have hlines : (s.holding ch b).fillingVersion key = s.fillingVersion key := rfl
  rw [failOpen, failOpen, hlines, State.holding, failPortrait_modChan]
  exact setBinding_holding ..

/-! ## The disposal of a record where no judging has been made yet (R9, R55) -/

/-- A state in which a channel's record is disposed of: its buffer is empty otherwise, nothing waits, no other channel presents
a record, and nothing can begin. -/
structure Disposing (ch : Chan) (s : State) : Prop where
  vacant : Vacant ch s
  noWaiters : s.waiting = []
  others : ∀ c, c ≠ ch → s.presents c = false
  steady : Steady s

theorem Listening.disposing {ch : Chan} {s : State} (h : Listening ch s) : Disposing ch s :=
  ⟨h.vacant, h.noWaiters, fun c _ => h.still c, h.steady⟩

/-- A change of the channel's binding, and one of the tables, leave such a state. -/
theorem Disposing.bind {ch : Chan} {s u : State} (h : Disposing ch s) (hl : SameLink s u) (hs : Steady u) (bd : Binding) :
    Disposing ch (setBinding ch bd u) where
  vacant := (h.vacant.same (by rw [hl.1])).modChan ⟨fun _ => rfl, fun _ => rfl, fun _ => rfl, fun _ _ => rfl⟩
  noWaiters := hl.2.trans h.noWaiters
  others c hc := by
    have other : (setBinding ch bd u).chans[c] = s.chans[c] := (modChan_other _ u hc).trans (by rw [hl.1])
    rw [← h.others c hc]
    exact presents_same (by rw [other]) (by rw [other]) hl.2
  steady := hs

theorem Disposing.failOpen {ch : Chan} {s : State} (h : Disposing ch s) (key tag found : Nat) (after : Binding) :
    Disposing ch (failOpen ch key tag found after s) :=
  h.bind (failPortrait_sameLink ..) (steady_failPortrait _ _ _ _ h.steady) after

section

variable {ch : Chan} {s w : State} {b : List Byte}

theorem deliver_takenAt {t x : State} (hq : Listening ch s) (hb : IsRecord b) (h : Disposing ch t)
    (hp : presentRecord ch b (s.holding ch b) = conclude ch b (.taken (t.holding ch b)) x) :
    deliver ch b s = (judgeStore (recTag b) (t.counted ch)).rested :=
  deliver_takenOn hq hb hp (Nat.le_refl _) h.vacant h.noWaiters h.others h.steady

/-- A record, not a HEAD, that is refused on the state `w`. -/
theorem deliver_refusedAt (hq : Listening ch s) (hb : IsRecord b) (hh : recKind b ≠ some .portraitHead) (h : Disposing ch w)
    {reason : Reason} {extra : List Item}
    (hp : presentRecord ch b (s.holding ch b) = conclude ch b (.refused reason extra) (w.holding ch b)) :
    deliver ch b s =
      (judgeStore (recTag b) (w.refusedOn ch (recTag b) (recSubject b) (recKindCode b) reason extra)).rested := by
  let f : Channel → Channel := fun c => { c with refused := bump c.refused }
  let t : State := notify .refused (recTag b) (recSubject b) ([.two ch, .two (recKindCode b), .two reason.code] ++ extra) w
  have hf : KeepsIntake f := ⟨fun _ => rfl, fun _ => rfl, fun _ => rfl, fun _ _ => rfl⟩
  have hunwait : unwait ch (w.holding ch b) = w.holding ch b := unwait_none h.noWaiters
  have hskip : ∀ x, skipRefusedHead ch b x = x := fun x => by
    unfold skipRefusedHead
    split
    · rename_i e _; exact absurd e hh
    · rfl
  have hlink : SameLink w t := notify_sameLink ..
  have hv : Vacant ch t := h.vacant.same (by rw [hlink.1])
  have hrefused : w.refusedOn ch (recTag b) (recSubject b) (recKindCode b) reason extra = modChan ch f t := by
    rw [State.refusedOn, notify_modChan]
  rw [hrefused]
  refine deliver_disposed hq hb ?_ (hv.modChan hf) (hlink.2.trans h.noWaiters) (fun c hc => ?_) ((notify_sameShop ..).steady h.steady)
  · rw [hp, conclude]
    simp only [hunwait, hskip]
    rw [notify_modChan, State.holding, notify_modChan, ← State.holding]
    exact congrArg (judgeStore _) (dropFront_vacant hf hv (Nat.le_refl _))
  · have other : (modChan ch f t).chans[c] = w.chans[c] := (modChan_other _ t hc).trans (by rw [hlink.1])
    rw [← h.others c hc]
    exact presents_same (by rw [other]) (by rw [other]) hlink.2

end

/-! ## A STRIP or END, and the portrait that is open on its channel (R49) -/

/-- A record of a portrait already begun, a STRIP or an END, of a key: what it does to an open portrait of another key, with the
strip index that it found, and to a channel without one. -/
structure PartRecord (ch : Chan) (b : List Byte) (kind : RecordKind) (key found : Nat) : Prop where
  whole : IsRecord b
  checked : decoderCheck b = .ok kind
  hasKey : field b 8 4 = key
  notHead : recKind b ≠ some .portraitHead
  subject : recSubject b = key
  breaks : ∀ s, breakOpen ch kind b s = breakByKey ch found b s
  refuses : ∀ s : State, s.chans[ch].binding = .unbound → judgeOwner ch kind b s = .refused .noOpenPortrait []

/-- The record of a well-formed STRIP or END is one. -/
theorem CarriedRecord.part {ch : Chan} {b : List Byte} {kind : RecordKind} {form : RecordForm} {key found : Nat}
    (c : CarriedRecord b kind form) (hkey : (8, 4, key) ∈ form.fields)
    (hk : (kind = .portraitStrip ∧ field b 12 2 = found) ∨ (kind = .portraitEnd ∧ found = 0)) :
    PartRecord ch b kind key found := by
  have hfield : field b 8 4 = key := c.reads.fields (8, 4, key) hkey
  have hcarries : ∀ n, kind.fixedPart = n → 12 ≤ n → recKey? b = some key := fun n hn h12 => by
    rw [recKey?, if_pos (Nat.le_trans (hn ▸ h12) (decoderCheck_ok c.checked).2.2), hfield]
  obtain ⟨rfl, rfl⟩ | ⟨rfl, rfl⟩ := hk
  · exact { whole := c.whole, checked := c.checked, hasKey := hfield
            notHead := by rw [c.isKind]; exact nofun
            subject := by rw [recSubject, c.isKind, hcarries 16 rfl (by decide)]; rfl
            breaks := fun _ => rfl
            refuses := fun u hu => by rw [judgeOwner, judgeStrip, hu] }
  · exact { whole := c.whole, checked := c.checked, hasKey := hfield
            notHead := by rw [c.isKind]; exact nofun
            subject := by rw [recSubject, c.isKind, hcarries 16 rfl (by decide)]; rfl
            breaks := fun _ => rfl
            refuses := fun u hu => by rw [judgeOwner, judgeEnd, hu] }

section

variable {ch : Chan} {s : State} {b : List Byte} {kind : RecordKind} {key found k n : Nat}

theorem breakByKey_other (ho : s.chans[ch].binding = .opened k n) (hk : field b 8 4 ≠ k) :
    breakByKey ch found b s = failOpen ch k (recTag b) found .unbound s := by
  rw [breakByKey, ho]
  exact if_neg hk

theorem breakByKey_same (ho : s.chans[ch].binding = .opened (field b 8 4) n) : breakByKey ch found b s = s := by
  rw [breakByKey, ho]
  exact if_pos rfl

theorem breakByKey_unbound (hu : s.chans[ch].binding = .unbound) : breakByKey ch found b s = s := by
  rw [breakByKey, hu]

theorem PartRecord.presented (r : PartRecord ch b kind key found) (hq : Quiet ch s) :
    presentRecord ch b (s.holding ch b) = conclude ch b
      (judgeOwner ch kind b (breakByKey ch found b (s.holding ch b))) (breakByKey ch found b (s.holding ch b)) := by
  rw [presentRecord_ok (fun key => by rw [holding_self]; exact hq.noSkip key) r.checked, r.breaks]

/-- With no portrait open the record is refused (R49). -/
theorem PartRecord.deliver_unbound (r : PartRecord ch b kind key found) (hq : Quiet ch s)
    (hu : s.chans[ch].binding = .unbound) :
    deliver ch b s = (s.refusedOn ch (recTag b) key (recKindCode b) .noOpenPortrait []).rested := by
  have hheld : (s.holding ch b).chans[ch].binding = .unbound := by rw [holding_self]; exact hu
  rw [← r.subject, ← refusedOn_rested hq (recTag b)]
  refine deliver_refused hq r.whole r.notHead ?_
  rw [r.presented hq, breakByKey_unbound hheld, r.refuses _ hheld]

/-- A record of another key fails the open portrait and is refused (R49). -/
theorem PartRecord.deliver_other (r : PartRecord ch b kind key found) (hq : Quiet ch s)
    (ho : s.chans[ch].binding = .opened k n) (hk : k ≠ key) :
    deliver ch b s = (judgeStore (recTag b) ((failOpen ch k (recTag b) found .unbound s).refusedOn ch (recTag b) key
      (recKindCode b) .noOpenPortrait [])).rested := by
  have hheld : (s.holding ch b).chans[ch].binding = .opened k n := by rw [holding_self]; exact ho
  have hfailed : ((failOpen ch k (recTag b) found .unbound s).holding ch b).chans[ch].binding = .unbound := by
    rw [holding_self, failOpen, setBinding, modChan_self]
  rw [← r.subject]
  refine deliver_refusedAt hq.toListening r.whole r.notHead (hq.disposing.failOpen k _ found .unbound) ?_
  rw [r.presented hq, breakByKey_other hheld (r.hasKey ▸ hk.symm), failOpen_held, r.refuses _ hfailed]

/-- A record of the open key is judged by its owner; where it is taken, its effect is the whole of what happens (R9, R48, R50). -/
theorem PartRecord.deliver_same {t : State} (r : PartRecord ch b kind key found) (hq : Quiet ch s)
    (ho : s.chans[ch].binding = .opened key n) (hj : judgeOwner ch kind b (s.holding ch b) = .taken (t.holding ch b))
    (h : Disposing ch t) : deliver ch b s = (judgeStore (recTag b) (t.counted ch)).rested := by
  have hheld : (s.holding ch b).chans[ch].binding = .opened (field b 8 4) n := by rw [holding_self, r.hasKey]; exact ho
  refine deliver_takenAt hq.toListening r.whole h (x := s.holding ch b) ?_
  rw [r.presented hq, breakByKey_same hheld, hj]

end

/-- The failure of the open portrait as the whole effect of a record: its blocks return and its incoming role is emptied
(R53). -/
theorem failed_rested {s : State} {ch : Chan} {key : Nat} {e : Entry} {v : Version} (after : Binding) (reason : FailReason)
    (tag : Nat) (extra : List Item) (he : s.entry? key = some e) (hv : e.incoming.filter Version.filling = some v) :
    (judgeStore tag ((setBinding ch after (failPortrait key reason tag extra s)).counted ch)).rested =
      (judgeStore tag ((setBinding ch after (notify .portraitFailed tag key ([.two v.number, .two reason.code] ++ extra)
        { s with entries := replaceFirst (fun x => x.key = key) { e with incoming := none } s.entries
                 freeBlocks := joinRuns s.freeBlocks v.blocks })).counted ch)).rested := by
  refine judgeStore_rested tag ?_
  rw [failPortrait_filling reason tag extra he hv, rested_counted, rested_counted, rested_setBinding, rested_setBinding]
  exact congrArg (fun u => (setBinding ch after u).counted ch) (forgets_rested.notify _ _ _ _ rfl)

theorem filling_incoming {e : Entry} {v : Version} {win : Rect} (hin : e.incoming = some v) (hfill : v.state = .filling win) :
    e.incoming.filter Version.filling = some v := by
  rw [hin, Option.filter_some, Version.filling, hfill]
  rfl

/-! ## PORTRAIT_STRIP (R48, R65) -/

/-- The state in which a strip's lines have been written, metered and counted in an entry's version. -/
def State.withStrip (b : List Byte) (e : Entry) (v : Version) (win : Rect) (s : State) : State :=
  let added := meterLines win v.width (field b 14 2) v.lines (b.drop 16)
  let place := locate (v.lines * v.width * 3) (field b 14 2 * v.width * 3) (blockAreas v.blocks)
  setEntry { e with incoming := some { v with
      lines := v.lines + field b 14 2, sum := v.sum + added.1, count := v.count + added.2 } }
    { s with store := writePieces place (b.drop 16) s.store }

section

variable {ch : Chan} {s : State} {b : List Byte} {key n : Nat} {e : Entry} {v : Version} {win : Rect}

theorem judgeStrip_opened (ho : s.chans[ch].binding = .opened key n) (he : s.entry? key = some e)
    (hin : e.incoming = some v) (hfill : v.state = .filling win) :
    judgeStrip ch b s = if stripSound b n v then .taken (acceptStrip ch b key n e v win s)
      else .taken (failOpen ch key (recTag b) (field b 12 2) (.skipping key) s) := by
  rw [judgeStrip, ho]
  simp only [he, hin, hfill]

theorem stripSound_iff : stripSound b n v = true ↔ field b 12 2 = n ∧ 1 ≤ field b 14 2 ∧
    v.lines + field b 14 2 ≤ v.height ∧ b.length = 16 + field b 14 2 * v.width * 3 := by
  simp only [stripSound, Bool.and_eq_true, decide_eq_true_eq, and_assoc]

theorem acceptStrip_eq : acceptStrip ch b key n e v win s = setBinding ch (.opened key (n + 1)) (s.withStrip b e v win) := rfl

theorem acceptStrip_holding : acceptStrip ch b key n e v win (s.holding ch b) =
    (acceptStrip ch b key n e v win s).holding ch b :=
  setBinding_holding ch b (.opened key (n + 1)) (s.withStrip b e v win)

theorem acceptStrip_disposing (h : Disposing ch s) : Disposing ch (acceptStrip ch b key n e v win s) :=
  h.bind (u := s.withStrip b e v win) ⟨rfl, rfl⟩ h.steady _

/-- An accepted strip changes neither the pool nor what is owed, so that its effect stands as it is. -/
theorem acceptStrip_settled (hq : Quiet ch s) (tag : Nat) :
    (judgeStore tag ((acceptStrip ch b key n e v win s).counted ch)).rested =
      (acceptStrip ch b key n e v win s).counted ch := by
  rw [judgeStore_judged]
  · exact rested_self hq.noWake
  · exact storeJudged_of hq.judged rfl rfl rfl

/-- A STRIP of the open key is accepted where it is sound, and fails the portrait otherwise (R48, R53). -/
theorem PartRecord.deliver_strip {found : Nat} (r : PartRecord ch b .portraitStrip key found) (hq : Quiet ch s)
    (ho : s.chans[ch].binding = .opened key n) (he : s.entry? key = some e) (hin : e.incoming = some v)
    (hfill : v.state = .filling win) :
    deliver ch b s = if stripSound b n v then (acceptStrip ch b key n e v win s).counted ch
      else (judgeStore (recTag b) ((failOpen ch key (recTag b) (field b 12 2) (.skipping key) s).counted ch)).rested := by
  have hheld : (s.holding ch b).chans[ch].binding = .opened key n := by rw [holding_self]; exact ho
  have hj : judgeOwner ch .portraitStrip b (s.holding ch b) = _ := judgeStrip_opened hheld he hin hfill
  split
  · rename_i sound
    rw [if_pos sound, acceptStrip_holding] at hj
    rw [r.deliver_same hq ho hj (acceptStrip_disposing hq.disposing), acceptStrip_settled hq]
  · rename_i unsound
    rw [if_neg unsound, failOpen_held] at hj
    exact r.deliver_same hq ho hj (hq.disposing.failOpen ..)

theorem fillingVersion_of (he : s.entry? key = some e) (hv : e.incoming.filter Version.filling = some v) :
    s.fillingVersion key = some v := by
  rw [State.fillingVersion, he]
  exact hv

end

/-- Settles O15: a sound strip is accepted, another fails the portrait that is open on its channel. -/
theorem portraitStrip : Obligations.PortraitStrip := by
  intro ch tag key index lines pixels s hq hw
  have hexec := exec_wireRecord (c := .portraitStrip ch tag key index lines pixels) hq.up rfl
  have carried := carriedRecord (c := .portraitStrip ch tag key index lines pixels) hw rfl rfl rfl
  have hqc := quiet_cleared hq
  generalize portraitStripRecord tag key index lines pixels = b at hexec carried
  have htag : recTag b = tag := carried.reads.tag
  have hcode : recKindCode b = 17 := carried.reads.kind
  have hindex : field b 12 2 = index := carried.reads.fields (12, 2, index) (by simp)
  have hlines : field b 14 2 = lines := carried.reads.fields (14, 2, lines) (by simp)
  have hpixels : b.drop 16 = pixels := carried.reads.rest
  have hlength : b.length = 16 + pixels.length := by
    have h16 : 16 ≤ b.length := (decoderCheck_ok carried.checked).2.2
    rw [← hpixels, List.length_drop]
    omega
  have hsound : ∀ n v, stripSound b n v = true ↔
      index = n ∧ 1 ≤ lines ∧ v.lines + lines ≤ v.height ∧ pixels.length = lines * v.width * 3 := fun n v => by
    rw [stripSound_iff, hindex, hlines, hlength, Nat.add_left_cancel_iff]
  have r : PartRecord ch b .portraitStrip key index := carried.part (by simp) (.inl ⟨rfl, hindex⟩)
  refine ⟨fun hu => ?_, fun n e v win ho he hin hfill => ⟨fun sound => ?_, fun unsound => ?_⟩, fun k n ho hk => ?_⟩
  · rw [hexec, r.deliver_unbound hqc hu, htag, hcode]
  · rw [hexec, r.deliver_strip hqc ho he hin hfill, if_pos ((hsound n v).2 sound)]
    obtain rfl := entry?_key he
    rw [acceptStrip_eq, State.withStrip, hlines, hpixels]
    rfl
  · have hv := filling_incoming hin hfill
    rw [hexec, r.deliver_strip hqc ho he hin hfill, if_neg (mt (hsound n v).1 unsound), htag, hindex, failOpen,
      fillingVersion_of (s := s.cleared) he hv, failed_rested (s := s.cleared) _ _ _ _ he hv]
    rfl
  · rw [hexec, r.deliver_other hqc ho hk, htag, hcode]

/-! ## PORTRAIT_END (R50, R51, R66 to R69) -/

section

variable {ch : Chan} {s : State} {b : List Byte} {key n : Nat} {e : Entry} {v : Version}

theorem judgeEnd_opened (ho : s.chans[ch].binding = .opened key n) (he : s.entry? key = some e)
    (hv : e.incoming.filter Version.filling = some v) :
    judgeEnd ch b s =
      if field b 12 2 = v.height ∧ v.lines = v.height then
        .taken (takeRole e (completedVersion (s.targetFor e) (recTag b) v) (setBinding ch .unbound s))
      else .taken (failPortrait key .lineCount (recTag b) [.two v.height, .two v.lines, .two (field b 12 2)]
        (setBinding ch .unbound s)) := by
  rw [judgeEnd, ho]
  simp only [he, hv, Bool.and_eq_true, decide_eq_true_eq]
  rfl

theorem takeRole_unbound : takeRole e v (setBinding ch .unbound s) = setBinding ch .unbound (takeRole e v s) :=
  takeRole_modChan ..

theorem takeRole_holding : takeRole e v (setBinding ch .unbound (s.holding ch b)) =
    (takeRole e v (setBinding ch .unbound s)).holding ch b := by
  rw [takeRole_unbound, takeRole_unbound, State.holding, takeRole_modChan]
  exact setBinding_holding ..

theorem failPortrait_unbound (reason : FailReason) (tag : Nat) (extra : List Item) :
    failPortrait key reason tag extra (setBinding ch .unbound (s.holding ch b)) =
      (setBinding ch .unbound (failPortrait key reason tag extra s)).holding ch b := by
  rw [setBinding, failPortrait_modChan, State.holding, failPortrait_modChan]
  exact setBinding_holding ..

/-- An END of the open key completes the version where both counts are at the height, and fails the portrait otherwise (R50,
R51, R53). -/
theorem PartRecord.deliver_end {found : Nat} (r : PartRecord ch b .portraitEnd key found) (hq : Quiet ch s)
    (ho : s.chans[ch].binding = .opened key n) (he : s.entry? key = some e)
    (hv : e.incoming.filter Version.filling = some v) :
    deliver ch b s =
      if field b 12 2 = v.height ∧ v.lines = v.height then
        (judgeStore (recTag b) ((takeRole e (completedVersion (s.targetFor e) (recTag b) v)
          (setBinding ch .unbound s)).counted ch)).rested
      else
        (judgeStore (recTag b) ((setBinding ch .unbound (failPortrait key .lineCount (recTag b)
          [.two v.height, .two v.lines, .two (field b 12 2)] s)).counted ch)).rested := by
  have hheld : (s.holding ch b).chans[ch].binding = .opened key n := by rw [holding_self]; exact ho
  have htarget : (s.holding ch b).targetFor e = s.targetFor e := rfl
  have hj : judgeOwner ch .portraitEnd b (s.holding ch b) = _ := judgeEnd_opened hheld he hv
  split
  · rename_i counts
    rw [if_pos counts, htarget, takeRole_holding] at hj
    refine r.deliver_same hq ho hj ?_
    rw [takeRole_unbound]
    exact hq.disposing.bind (takeRole_sameLink ..) ((takeRole_sameShop ..).steady hq.steady) _
  · rename_i counts
    rw [if_neg counts, failPortrait_unbound] at hj
    exact r.deliver_same hq ho hj (hq.disposing.bind (failPortrait_sameLink ..) (steady_failPortrait _ _ _ _ hq.steady) _)

end

/-- Settles O16: the version is complete where both counts are at the height, and fails otherwise. -/
theorem portraitEnd : Obligations.PortraitEnd := by
  intro ch tag key total s hq hw
  have hexec := exec_wireRecord (c := .portraitEnd ch tag key total) hq.up rfl
  have carried := carriedRecord (c := .portraitEnd ch tag key total) hw rfl rfl rfl
  have hqc := quiet_cleared hq
  generalize portraitEndRecord tag key total = b at hexec carried
  have htag : recTag b = tag := carried.reads.tag
  have hcode : recKindCode b = 18 := carried.reads.kind
  have htotal : field b 12 2 = total := carried.reads.fields (12, 2, total) (by simp)
  have r : PartRecord ch b .portraitEnd key 0 := carried.part (by simp) (.inr ⟨rfl, rfl⟩)
  refine ⟨fun hu => ?_, fun n e v win ho he hin hfill => ⟨fun counts => ?_, fun counts => ?_⟩, fun k n ho hk => ?_⟩
  · rw [hexec, r.deliver_unbound hqc hu, htag, hcode]
  · rw [hexec, r.deliver_end hqc ho he (filling_incoming hin hfill), htotal, if_pos counts, htag]
    rfl
  · have hv := filling_incoming hin hfill
    rw [hexec, r.deliver_end hqc ho he hv, htotal, if_neg counts, htag, failed_rested (s := s.cleared) _ _ _ _ he hv]
    rfl
  · rw [hexec, r.deliver_other hqc ho hk, htag, hcode]

end Sys2Proof.Machine
end

section
/-! PROOF. The tone meter's arithmetic: luminance, the face window, the measured gain and the correction of a pixel (R62 to R64,
R68, R71). -/

namespace Sys2Proof.Machine

/-! ## The measured gain (R68) -/

theorem clamp_le_of_gt {lo hi n : Nat} (h : lo < clamp lo hi n) : clamp lo hi n ≤ n := by
  unfold clamp at *
  omega

theorem le_clamp_of_lt {lo hi n : Nat} (h : clamp lo hi n < hi) : n ≤ clamp lo hi n := by
  unfold clamp at *
  omega

theorem measuredGain_zero (t : Nat) : measuredGain t 0 = 2048 := rfl

theorem measuredGain_pos (t : Nat) {m : Nat} (hm : 0 < m) :
    measuredGain t m = clamp 512 2048 ((2 * t * 1024 + m) / (2 * m)) :=
  if_neg (Nat.ne_of_gt hm)

/-- A gain that was not raised to the least is at most half a 1,024th above the exact quotient. -/
theorem measuredGain_upper (t : Nat) {m : Nat} (hm : 0 < m) (h : 512 < measuredGain t m) :
    2 * m * measuredGain t m ≤ 2 * t * 1024 + m := by
  rw [measuredGain_pos t hm] at *
  calc 2 * m * clamp 512 2048 ((2 * t * 1024 + m) / (2 * m))
      ≤ 2 * m * ((2 * t * 1024 + m) / (2 * m)) := Nat.mul_le_mul_left _ (clamp_le_of_gt h)
    _ ≤ 2 * t * 1024 + m := Nat.mul_div_le _ _

/-- A gain that was not lowered to the greatest is less than half a 1,024th below the exact quotient, or at it. -/
theorem measuredGain_lower (t : Nat) {m : Nat} (hm : 0 < m) (h : measuredGain t m < 2048) :
    2 * t * 1024 + m < 2 * m * (measuredGain t m + 1) := by
  rw [measuredGain_pos t hm] at *
  calc 2 * t * 1024 + m
      < 2 * m * ((2 * t * 1024 + m) / (2 * m) + 1) := Nat.lt_mul_div_succ _ (by omega)
    _ ≤ 2 * m * (clamp 512 2048 ((2 * t * 1024 + m) / (2 * m)) + 1) :=
        Nat.mul_le_mul_left _ (Nat.succ_le_succ (le_clamp_of_lt h))

/-! ## The correction of a channel value (R71) -/

/-- The saturated value fits a byte, so that storing it as one loses nothing. -/
theorem applyGain_toNat (gain : Nat) (src : Byte) :
    (applyGain gain src).toNat = min 255 ((src.toNat * gain + 512) / 1024) :=
  (BitVec.toNat_ofNat _ _).trans (Nat.mod_eq_of_lt (by omega))

theorem applyGain_unity (src : Byte) : applyGain 1024 src = src := by
  apply BitVec.eq_of_toNat_eq
  have hsrc : src.toNat < 256 := src.isLt
  rw [applyGain_toNat]
  omega

theorem applyGain_mono (gain : Nat) {a b : Byte} (h : a.toNat ≤ b.toNat) :
    (applyGain gain a).toNat ≤ (applyGain gain b).toNat := by
  rw [applyGain_toNat, applyGain_toNat]
  have hmul : a.toNat * gain ≤ b.toNat * gain := Nat.mul_le_mul_right gain h
  exact min_le_min_left _ (Nat.div_le_div_right (Nat.add_le_add_right hmul 512))

/-- Settles O41: the measured gain is a floor between two clamps, and the correction's value fits a byte. -/
theorem gainsCorrect : Obligations.GainsCorrect := by
  refine ⟨measuredGain_zero, fun target mean hm => ?_, applyGain_toNat, applyGain_unity, fun gain _ _ => applyGain_mono gain,
    fun _ _ => rfl⟩
  obtain ⟨least, greatest⟩ := measuredGain_legal target mean
  exact ⟨least, greatest, measuredGain_upper target hm, measuredGain_lower target hm⟩

/-! ## Luminance (R62) -/

/-- The weights sum to 256, so that a white pixel's numerator is 256 × 255 + 128. -/
theorem luminance_le (r g b : Byte) : luminance r g b ≤ 255 := by
  have hr : r.toNat < 256 := r.isLt
  have hg : g.toNat < 256 := g.isLt
  have hb : b.toNat < 256 := b.isLt
  unfold luminance
  omega

/-- Settles O40: the formula is the model's own, and each weighted channel is at its greatest at 255. -/
theorem luminance_eq_and_le : Obligations.Luminance :=
  fun r g b => ⟨rfl, luminance_le r g b⟩

/-! ## The face window (R63, R64) -/

section

variable {sw sh x y w h : Nat}

theorem faceWindow_default (hz : w = 0 ∨ h = 0) :
    faceWindow sw sh x y w h = { x := sw / 4, y := sh / 4, w := sw / 2, h := sh / 2 } :=
  if_pos (by simpa using hz)

theorem faceWindow_clipped (hw : w ≠ 0) (hh : h ≠ 0) :
    faceWindow sw sh x y w h =
      { x := min x (sw - 1), y := min y (sh - 1)
        w := min w (sw - min x (sw - 1)), h := min h (sh - min y (sh - 1)) } :=
  if_neg (by simp [hw, hh])

theorem faceWindow_kept (hw : w ≠ 0) (hh : h ≠ 0) (hx : x + w ≤ sw) (hy : y + h ≤ sh) :
    faceWindow sw sh x y w h = { x := x, y := y, w := w, h := h } := by
  have left : min x (sw - 1) = x := by omega
  have top : min y (sh - 1) = y := by omega
  have width : min w (sw - x) = w := by omega
  have height : min h (sh - y) = h := by omega
  rw [faceWindow_clipped hw hh, left, top, width, height]

end

/-- Settles O42, by the two tables: the default window where a size field is 0, else the window clipped to the image. -/
theorem faceWindowInside : Obligations.FaceWindowInside := by
  intro sw sh x y w h hsw hsh
  by_cases hz : w = 0 ∨ h = 0
  case pos =>
    rw [faceWindow_default hz]
    have unclipped (hw : w ≠ 0) (hh : h ≠ 0) : False := not_or.2 ⟨hw, hh⟩ hz
    dsimp only
    exact ⟨by omega, by omega, by omega, by omega, fun hw hh => (unclipped hw hh).elim,
      fun hw hh => (unclipped hw hh).elim, fun _ => ⟨rfl, by omega, by omega⟩⟩
  case neg =>
    obtain ⟨hw, hh⟩ := not_or.1 hz
    refine ⟨?_, ?_, ?_, ?_, fun _ _ => ?_, faceWindow_kept, fun hz' => absurd hz' hz⟩ <;> rw [faceWindow_clipped hw hh]
    case refine_5 => exact ⟨rfl, rfl, rfl, rfl⟩
    all_goals dsimp only; omega

end Sys2Proof.Machine
end

section
/-! PROOF. Every move keeps the settings, the loaded templates and the loaded fonts in their ranges (R75, R85, R165, R175). -/

namespace Sys2Proof.Machine

/-! ## One member of a table of the part is changed -/

theorem getElem_set_fin {α : Type} {n : Nat} (v : Vector α n) (i k : Fin n) (x : α) :
    (v.set i x)[k] = if k = i then x else v[k] := by
  by_cases h : k = i
  · subst h
    simp
  · have hne : i.val ≠ k.val := fun e => h (Fin.ext e.symm)
    rw [if_neg h]
    simp [hne]

theorem classIndex_injective {a b : NoticeClass} (h : classIndex a = classIndex b) : a = b := by
  revert h
  cases a <;> cases b <;> decide

/-! ## The settings (R165, R175) -/

/-- A class's gate keeps its interval, or takes one in its range, which REPLY never does (R165). -/
theorem SettingsLegal.gate {s : State} (h : SettingsLegal s) {cls : NoticeClass} {g : Gate}
    (hg : g.interval = s.gates[classIndex cls].interval ∨ (cls ≠ .reply ∧ g.interval ≤ Config.intervalMax)) :
    SettingsLegal { s with gates := s.gates.set (classIndex cls) g } where
  stall := h.stall
  target := h.target
  lead := h.lead
  lowMark := h.lowMark
  intervals k := by
    rw [getElem_set_fin]
    split
    · rcases hg with hsame | ⟨-, hle⟩
      · exact hsame ▸ h.intervals cls
      · exact hle
    · exact h.intervals k
  reply := by
    rw [getElem_set_fin]
    split
    · rename_i hk
      obtain rfl := classIndex_injective hk
      rcases hg with hsame | ⟨hne, -⟩
      · exact hsame.trans h.reply
      · exact absurd rfl hne
    · exact h.reply

theorem Move.keeps_settings {lim : Nat} {s t : State} (m : Move lim s t) (h : SettingsLegal s) : SettingsLegal t := by
  have reset : SettingsLegal (Machine.masterReset s) :=
    ⟨reset_settingsLegal.stall, reset_settingsLegal.target, reset_settingsLegal.lead, reset_settingsLegal.lowMark,
      reset_settingsLegal.intervals, reset_settingsLegal.reply⟩
  cases m
  case stallLimit v hv => exact ⟨hv, h.target, h.lead, h.lowMark, h.intervals, h.reply⟩
  case globalTarget v hv => exact ⟨h.stall, hv, h.lead, h.lowMark, h.intervals, h.reply⟩
  case lead v hv => exact ⟨h.stall, h.target, hv, h.lowMark, h.intervals, h.reply⟩
  case lowMark v hv => exact ⟨h.stall, h.target, h.lead, hv, h.intervals, h.reply⟩
  case gate cls g hg => exact h.gate hg
  case masterReset => exact reset
  all_goals exact ⟨h.stall, h.target, h.lead, h.lowMark, h.intervals, h.reply⟩

/-! ## The template table and the font table (R75, R85) -/

/-- The page size and the band height are all that a template's legality is about. -/
theorem TemplateBuffer.Legal.of_same {t u : TemplateBuffer} (h : u.Legal) (hw : t.width = u.width) (hh : t.height = u.height)
    (hb : t.bandHeight = u.bandHeight) : t.Legal :=
  ⟨hw ▸ h.width, hh ▸ h.height, hb ▸ h.band⟩

theorem TablesLegal.template {s : State} (h : TablesLegal s) {i : Fin 12} {x : Option TemplateBuffer}
    (hx : ∀ t, x = some t → t.Legal ∨ ∃ u, s.templates[i] = some u ∧ t.width = u.width ∧ t.height = u.height ∧
      t.bandHeight = u.bandHeight) :
    TablesLegal { s with templates := s.templates.set i x } := by
  refine ⟨fun k t ht => ?_, h.2⟩
  rw [getElem_set_fin] at ht
  split at ht
  · rcases hx t ht with hlegal | ⟨u, hu, hw, hh, hb⟩
    · exact hlegal
    · exact (h.1 i u hu).of_same hw hh hb
  · exact h.1 k t ht

theorem TablesLegal.font {s : State} (h : TablesLegal s) {i : Fin 2} {f : Font}
    (hf : f.metrics = s.fonts[i].metrics ∨ ∀ m, f.metrics = some m → m.Legal) :
    TablesLegal { s with fonts := s.fonts.set i f } := by
  refine ⟨h.1, fun k m hm => ?_⟩
  rw [getElem_set_fin] at hm
  split at hm
  · rcases hf with hsame | hlegal
    · exact h.2 i m (hsame ▸ hm)
    · exact hlegal m hm
  · exact h.2 k m hm

theorem TablesLegal.emptyTables {s : State} (h : TablesLegal s) : TablesLegal (emptyTables s) := by
  refine ⟨fun i t ht => ?_, h.2⟩
  simp [Machine.emptyTables] at ht

theorem Move.keeps_tables {lim : Nat} {s t : State} (m : Move lim s t) (h : TablesLegal s) : TablesLegal t := by
  have reset : TablesLegal (Machine.masterReset s) := reset_tablesLegal
  cases m
  case template i x hx => exact h.template hx
  case font i f hf => exact h.font hf
  case emptyTables => exact h.emptyTables
  case masterReset => exact reset
  all_goals exact h

/-- Settles O54: the moves of a step keep the settings and the tables in their ranges. -/
theorem stepKeepsSettings : Obligations.StepKeepsSettings := by
  intro s t hsettings htables h
  obtain ⟨lim, hl⟩ := exists_frameWithin s.pending
  have moves := step_moves s t hl h
  exact ⟨moves.keeps (fun _ _ m => m.keeps_settings) hsettings, moves.keeps (fun _ _ m => m.keeps_tables) htables⟩

end Sys2Proof.Machine
end

section
/-! PROOF. FONT and GLYPH: their refusals, the wait for the font lock, and what they store (R85, R86, R88). -/

namespace Sys2Proof.Machine

/-! ## A record of the tables on a quiet channel -/

/-- Two states with the same channels, waiting list, pool, store low state, pages, compositor and offer: what of a part makes it
rest. -/
structure SameRest (s t : State) : Prop where
  link : SameLink s t
  freeBlocks : t.freeBlocks = s.freeBlocks
  storeLow : t.storeLow = s.storeLow
  lowMark : t.lowMark = s.lowMark
  pages : t.pages = s.pages
  compositor : t.compositor = s.compositor
  offer : t.offer = s.offer

theorem SameRest.trans {s t u : State} (h : SameRest s t) (k : SameRest t u) : SameRest s u :=
  ⟨h.link.trans k.link, k.freeBlocks.trans h.freeBlocks, k.storeLow.trans h.storeLow, k.lowMark.trans h.lowMark,
    k.pages.trans h.pages, k.compositor.trans h.compositor, k.offer.trans h.offer⟩

theorem notify_sameRest (code : NoticeCode) (tag subject : Nat) (detail : List Item) (s : State) :
    SameRest s (notify code tag subject detail s) :=
  ⟨notify_sameLink .., notify_freeBlocks .., notify_storeLow .., notify_lowMark .., notify_pages .., notify_compositor ..,
    notify_offer ..⟩

/-- The state with another font of a number. -/
def State.withFont (number : Nat) (f : Font) (s : State) : State := { s with fonts := s.fonts.set (fontIndex number) f }

theorem withFont_sameRest (number : Nat) (f : Font) (s : State) : SameRest s (s.withFont number f) :=
  ⟨⟨rfl, rfl⟩, rfl, rfl, rfl, rfl, rfl, rfl⟩

/-- The kinds whose notices carry no subject: REFUSED names none for them (R166). -/
def RecordKind.ofTables : RecordKind → Bool
  | .template | .font | .glyph => true
  | _ => false

theorem recSubject_ofTables {b : List Byte} {kind : RecordKind} (hb : recKind b = some kind) (hk : kind.ofTables = true) :
    recSubject b = 0 := by
  unfold recSubject
  rw [hb]
  cases kind
  case template | font | glyph => rfl
  all_goals cases hk

theorem plain_ofTables {kind : RecordKind} (hk : kind.ofTables = true) : kind.plain = true := by
  cases kind
  case template | font | glyph => rfl
  all_goals cases hk

section

variable {ch : Chan} {s : State} {b : List Byte} {kind : RecordKind} {form : RecordForm}

theorem CarriedRecord.refused (r : CarriedRecord b kind form) (hq : Quiet ch s) (hk : kind.ofTables = true) {reason : Reason}
    {extra : List Item} (hj : judgeOwner ch kind b (s.holding ch b) = .refused reason extra) :
    deliver ch b s = (s.refusedOn ch form.tag 0 form.kind reason extra).rested := by
  rw [owner_refused hq r.whole r.checked (plain_ofTables hk) r.isKind hj, recSubject_ofTables r.isKind hk, r.reads.tag,
    r.reads.kind]

theorem CarriedRecord.deferred (r : CarriedRecord b kind form) (hq : Quiet ch s) (hk : kind.ofTables = true) {kept : Resource}
    (hj : judgeOwner ch kind b (s.holding ch b) = .deferred kept) : deliver ch b s = s.deferredOn ch b kept :=
  owner_deferred hq r.whole r.checked (plain_ofTables hk) hj

theorem CarriedRecord.taken (r : CarriedRecord b kind form) (hq : Quiet ch s) (hk : kind.ofTables = true) {u : State}
    (hj : judgeOwner ch kind b (s.holding ch b) = .taken (u.holding ch b)) (hu : SameRest s u) :
    deliver ch b s = (u.counted ch).rested := by
  obtain ⟨⟨hchans, hwaiting⟩, hfree, hlow, hmark, hpages, hcompositor, hoffer⟩ := hu
  rw [owner_taken hq r.whole r.checked (plain_ofTables hk) hj hchans hwaiting,
    counted_rested _ hq hfree hlow hmark hpages hcompositor hoffer]

end

theorem fontWaits_quiet {ch : Chan} {s : State} (hw : s.waiting = []) :
    s.fontWaits ch = s.pages.any fun p => p.state.pinning := by
  rw [State.fontWaits, olderWaiter_none hw, Bool.or_false, State.fontLocked]

/-! ## FONT (R85) -/

/-- The metrics that a FONT stores (R85). -/
def clampedMetrics (height tracking blank : Nat) : FontMetrics where
  height := max 8 (min height 48)
  tracking := min tracking 8
  blank := max 1 (min blank 48)

/-- The state in which a FONT has been taken (R85). -/
def State.fontLoaded (tag number height tracking blank : Nat) (s : State) : State :=
  let m := clampedMetrics height tracking blank
  notify .fontLoaded tag number [.two m.height, .two m.tracking, .two m.blank,
      flagItem [decide (m.height ≠ height), decide (m.tracking ≠ tracking), decide (m.blank ≠ blank)]]
    (s.withFont number { metrics := some m, glyphs := [] })

theorem judgeFont_of_fields {ch : Chan} {b : List Byte} {s : State} {number height tracking blank : Nat}
    (hn : field b 8 1 = number) (hh : field b 9 1 = height) (ht : field b 10 1 = tracking) (hb : field b 11 1 = blank)
    (hw : s.waiting = []) :
    judgeFont ch b s =
      if 1 < number then .refused .badField []
      else if s.pages.any (fun p => p.state.pinning) then .deferred .fontLock
      else .taken (s.fontLoaded (recTag b) number height tracking blank) := by
  subst hn hh ht hb
  have htracking : clamp 0 8 (field b 10 1) = min (field b 10 1) 8 := Nat.zero_max _
  simp only [judgeFont, fontWaits_quiet hw, htracking]
  rfl

theorem fontLoaded_sameRest (tag number height tracking blank : Nat) (s : State) :
    SameRest s (s.fontLoaded tag number height tracking blank) :=
  (withFont_sameRest _ _ s).trans (notify_sameRest ..)

theorem fontLoaded_holding (tag number height tracking blank : Nat) (ch : Chan) (b : List Byte) (s : State) :
    (s.holding ch b).fontLoaded tag number height tracking blank =
      (s.fontLoaded tag number height tracking blank).holding ch b := by
  have hset : ∀ f, (s.holding ch b).withFont number f = (s.withFont number f).holding ch b := fun _ => rfl
  unfold State.fontLoaded
  dsimp only
  rw [hset, State.holding, notify_modChan]
  rfl

/-- Settles O20: the owner's verdict on the fields, one branch after the other. -/
theorem font : Obligations.Font := by
  intro ch tag number height tracking blank s hq hw
  have r := carriedRecord (c := .font ch tag number height tracking blank) hw rfl rfl rfl
  rw [exec_wireRecord (c := .font ch tag number height tracking blank) hq.up rfl]
  generalize fontRecord tag number height tracking blank = b at r ⊢
  have hq' := quiet_cleared hq
  have hj : judgeOwner ch .font b (s.cleared.holding ch b) = _ :=
    judgeFont_of_fields (r.reads.fields (8, 1, number) (by simp)) (r.reads.fields (9, 1, height) (by simp))
      (r.reads.fields (10, 1, tracking) (by simp)) (r.reads.fields (11, 1, blank) (by simp)) hq.noWaiters
  congr 1
  split
  case isTrue h => exact r.refused hq' rfl (hj.trans (if_pos h))
  case isFalse h1 =>
    have hj := hj.trans (if_neg h1)
    split
    case isTrue h => exact r.deferred hq' rfl (hj.trans (if_pos h))
    case isFalse h =>
      have hj := hj.trans (if_neg h)
      rw [fontLoaded_holding, r.reads.tag] at hj
      exact r.taken hq' rfl hj (fontLoaded_sameRest ..)

/-! ## GLYPH (R86) -/

/-- The state in which a GLYPH has been taken: it stands in its font in place of any glyph of its code (R86). -/
def State.glyphStored (number : Nat) (g : Glyph) (s : State) : State :=
  s.withFont number { s.fonts[fontIndex number] with glyphs := putGlyph g s.fonts[fontIndex number].glyphs }

theorem judgeGlyph_of_fields {ch : Chan} {b bitmap : List Byte} {s : State} {number code advance : Nat}
    (hn : field b 8 1 = number) (hc : field b 9 1 = code) (ha : field b 10 1 = advance) (hb : b.drop 12 = bitmap)
    (hw : s.waiting = []) :
    judgeGlyph ch b s =
      if 1 < number then .refused .badField []
      else if ¬(32 ≤ code ∧ code ≤ 126) then .refused .badGlyph [.two 2]
      else if ¬(1 ≤ advance ∧ advance ≤ 48) then .refused .badGlyph [.two 3]
      else if s.pages.any (fun p => p.state.pinning) then .deferred .fontLock
      else
        match s.fonts[fontIndex number].metrics with
        | none => .refused .badGlyph [.two 5]
        | some m =>
          if bitmap.length ≠ m.height * ((advance + 7) / 8) then .refused .badGlyph [.two 6]
          else .taken (s.glyphStored number { code := code, advance := advance, bitmap := bitmap }) := by
  subst hn hc ha hb
  have outside (lo hi n : Nat) : ((decide (n < lo) || decide (hi < n)) = true) = ¬(lo ≤ n ∧ n ≤ hi) := by
    simp only [Bool.or_eq_true, decide_eq_true_eq, eq_iff_iff]
    omega
  simp only [judgeGlyph, outside, fontWaits_quiet hw, List.length_drop, bitmapLength]
  rfl

/-- Settles O21: the owner's verdict on the fields, one branch after the other. -/
theorem glyph : Obligations.Glyph := by
  intro ch tag number code advance bitmap s hq hw refused
  have r := carriedRecord (c := .glyph ch tag number code advance bitmap) hw rfl rfl rfl
  rw [exec_wireRecord (c := .glyph ch tag number code advance bitmap) hq.up rfl]
  generalize glyphRecord tag number code advance bitmap = b at r ⊢
  have hq' := quiet_cleared hq
  have hj : judgeOwner ch .glyph b (s.cleared.holding ch b) = _ :=
    judgeGlyph_of_fields (r.reads.fields (8, 1, number) (by simp)) (r.reads.fields (9, 1, code) (by simp))
      (r.reads.fields (10, 1, advance) (by simp)) r.reads.rest hq.noWaiters
  congr 1
  split
  case isTrue h => exact r.refused hq' rfl (hj.trans (if_pos h))
  case isFalse hnumber =>
    have hj := hj.trans (if_neg hnumber)
    split
    case isTrue h => exact r.refused hq' rfl (hj.trans (if_pos h))
    case isFalse hcode =>
      have hj := hj.trans (if_neg hcode)
      split
      case isTrue h => exact r.refused hq' rfl (hj.trans (if_pos h))
      case isFalse hadvance =>
        have hj := hj.trans (if_neg hadvance)
        split
        case isTrue h => exact r.deferred hq' rfl (hj.trans (if_pos h))
        case isFalse hlock =>
          have hj := hj.trans (if_neg hlock)
          have hfont : (s.cleared.holding ch b).fonts = s.fonts := rfl
          rw [hfont] at hj
          cases hm : s.fonts[fontIndex number].metrics with
          | none =>
            rw [hm] at hj
            exact r.refused hq' rfl hj
          | some m =>
            rw [hm] at hj
            dsimp only at hj ⊢
            split
            case isTrue h => exact r.refused hq' rfl (hj.trans (if_pos h))
            case isFalse h =>
              rw [r.taken (u := s.cleared.glyphStored number ⟨code, advance, bitmap⟩) hq' rfl (hj.trans (if_neg h))
                (withFont_sameRest ..)]
              exact rested_self hq.noWake

end Sys2Proof.Machine
end

section
/-! PROOF. The bands of a template cover its page (R75, R114), and the walk of its band index finds the slots of a band (R79). -/

namespace Sys2Proof.Machine

/-! ## The bands (R75, R114) -/

/-- The lines of the first `n` bands are the page's first `n` band heights, as far as the page reaches. -/
theorem sum_bandLines (t : TemplateBuffer) (n : Nat) :
    ((List.range n).map t.bandLines).sum = min t.height (n * t.bandHeight) := by
  induction n with
  | zero => simp
  | succ n ih =>
    rw [List.range_succ, List.map_append, List.sum_append, ih, List.map_singleton, List.sum_singleton, Nat.succ_mul]
    unfold TemplateBuffer.bandLines
    omega

section

variable {t : TemplateBuffer} (h : t.Legal)

include h

theorem TemplateBuffer.Legal.bandHeight_pos : 0 < t.bandHeight := by
  rcases h.band with e | e | e | e <;> omega

/-- The last band reaches the page's end, and each begins before it (R75). -/
theorem TemplateBuffer.Legal.lt_bandCount {b : Nat} : b < t.bandCount ↔ b * t.bandHeight < t.height := by
  have hpos := h.bandHeight_pos
  unfold TemplateBuffer.bandCount
  rw [← Nat.succ_le_iff, Nat.le_div_iff_mul_le hpos, Nat.succ_mul]
  omega

theorem TemplateBuffer.Legal.height_le_bands : t.height ≤ t.bandCount * t.bandHeight :=
  Nat.le_of_not_lt fun hlt => Nat.lt_irrefl _ (h.lt_bandCount.2 hlt)

/-- A band holds at most two buffers' bytes: 4,800 pixels by 128 lines at three bytes each. -/
theorem TemplateBuffer.Legal.bandBytes_le : t.width * t.bandHeight * 3 ≤ 2097152 := by
  have hheight : t.bandHeight ≤ 128 := by rcases h.band with e | e | e | e <;> omega
  calc t.width * t.bandHeight * 3 ≤ 4800 * 128 * 3 := Nat.mul_le_mul_right 3 (Nat.mul_le_mul h.width.2 hheight)
    _ ≤ 2097152 := by decide

end

/-- Settles O44: the sum of the first bands' lines, at the band count. -/
theorem bandsCover : Obligations.BandsCover := by
  intro t h
  have hpos := h.bandHeight_pos
  have hend := h.height_le_bands
  have hbytes := h.bandBytes_le
  refine ⟨?_, fun b hb => ?_, ?_⟩
  · rw [sum_bandLines, Nat.min_eq_left hend]
  · have hbegin := h.lt_bandCount.1 hb
    unfold TemplateBuffer.bandLines
    omega
  · unfold TemplateBuffer.need Config.bandBufferSize
    split <;> omega

/-! ## The band index (R79) -/

/-- The model's sort is the library's insertion sort. -/
theorem sortBy_eq_insertionSort {α : Type} (le : α → α → Bool) (l : List α) :
    sortBy le l = l.insertionSort fun a b => le a b = true := by
  have insert_eq (x : α) (l : List α) : insertSorted le x l = l.orderedInsert (fun a b => le a b = true) x := by
    induction l with
    | nil => rfl
    | cons y ys ih => rw [insertSorted, ih, List.orderedInsert_cons]
  induction l with
  | nil => rfl
  | cons x xs ih => rw [sortBy, ih, insert_eq, List.insertionSort_cons]

theorem sortBy_perm {α : Type} (le : α → α → Bool) (l : List α) : (sortBy le l).Perm l :=
  sortBy_eq_insertionSort le l ▸ List.perm_insertionSort _ l

theorem slotBefore_iff {a b : Slot} :
    slotBefore a b = true ↔ a.rect.y < b.rect.y ∨ (a.rect.y = b.rect.y ∧ a.index ≤ b.index) := by
  simp [slotBefore]

/-- By top line, then by slot index, is a total preorder, so that sorting puts the slots in that order. -/
theorem sortBy_slotBefore_pairwise (l : List Slot) : (sortBy slotBefore l).Pairwise fun a b => slotBefore a b = true := by
  have total : Std.Total fun a b : Slot => slotBefore a b = true := by
    refine ⟨fun a b => ?_⟩
    simp only [slotBefore_iff]
    omega
  have transitive : IsTrans Slot fun a b => slotBefore a b = true := by
    refine ⟨fun a b c => ?_⟩
    simp only [slotBefore_iff]
    omega
  rw [sortBy_eq_insertionSort]
  exact List.pairwise_insertionSort _ l

/-- In a list that never falls back into a test, the first members that meet it are all that do. -/
theorem mem_takeWhile_of_pairwise {α : Type} {p : α → Bool} {l : List α} (h : l.Pairwise fun a b => p b = true → p a = true)
    {k : α} : k ∈ l.takeWhile p ↔ k ∈ l ∧ p k = true := by
  induction l with
  | nil => simp
  | cons a rest ih =>
    obtain ⟨hfirst, hrest⟩ := List.pairwise_cons.1 h
    by_cases ha : p a = true
    · rw [List.takeWhile_cons_of_pos ha, List.mem_cons, ih hrest, List.mem_cons, or_and_right]
      refine or_congr_left ⟨fun e => ⟨e, e ▸ ha⟩, And.left⟩
    · rw [List.takeWhile_cons_of_neg ha]
      refine iff_of_false List.not_mem_nil fun ⟨hk, hp⟩ => ?_
      rcases List.mem_cons.1 hk with rfl | hk
      · exact ha hp
      · exact ha (hfirst k hk hp)

theorem mem_bandSlots {t : TemplateBuffer} (b : Nat) (h : t.bandIndex.Pairwise fun x y => x.rect.y ≤ y.rect.y) (k : Slot) :
    k ∈ t.bandSlots b ↔
      k ∈ t.bandIndex ∧ k.rect.y < (b + 1) * t.bandHeight ∧ b * t.bandHeight < k.rect.y + k.rect.h := by
  have hwalk : t.bandIndex.Pairwise fun x y : Slot =>
      decide (y.rect.y < (b + 1) * t.bandHeight) = true → decide (x.rect.y < (b + 1) * t.bandHeight) = true := by
    refine h.imp fun hle => ?_
    simp only [decide_eq_true_eq]
    exact Nat.lt_of_le_of_lt hle
  rw [TemplateBuffer.bandSlots, List.mem_filter, mem_takeWhile_of_pairwise hwalk, decide_eq_true_eq, decide_eq_true_eq,
    and_assoc]

/-- Settles O45: the walk stops at no slot of the band, and settling sorts the slots it keeps. -/
theorem bandWalk : Obligations.BandWalk :=
  ⟨fun _ b h => mem_bandSlots b h, fun _ => (sortBy_slotBefore_pairwise _).imp slotBefore_iff.1⟩

end Sys2Proof.Machine
end

section
/-! PROOF. TEMPLATE: what its owner reads, its refusals with step and slot, and the loading of a settled one (R74, R80, R81). -/

namespace Sys2Proof.Machine

/-! ## What the owner reads of a TEMPLATE (11.3) -/

/-- A TEMPLATE's slots with their slot indices. -/
def numbered (slots : List SlotFields) : List (Nat × SlotFields) := slots.zipIdx.map Prod.swap

theorem mem_numbered {slots : List SlotFields} {i : Nat} {f : SlotFields} : (i, f) ∈ numbered slots ↔ slots[i]? = some f := by
  rw [numbered, List.mem_map_swap, List.mem_zipIdx_iff_getElem?]

theorem numbered_map_fst (slots : List SlotFields) : (numbered slots).map Prod.fst = List.range' 0 slots.length := by
  rw [numbered, List.map_map, ← List.zipIdx_map_snd 0 slots]
  rfl

theorem numbered_map_snd (slots : List SlotFields) : (numbered slots).map Prod.snd = slots := by
  rw [numbered, List.map_map]
  exact List.zipIdx_map_fst 0 slots

theorem length_numbered (slots : List SlotFields) : (numbered slots).length = slots.length := by
  rw [numbered, List.length_map, List.length_zipIdx]

theorem carriedSlots_eq_numbered {b : List Byte} {slots : List SlotFields}
    (h : ∀ (i : Nat) (f : SlotFields), slots[i]? = some f → slotAt b i = f) : carriedSlots b slots.length = numbered slots := by
  refine List.ext_getElem (by rw [length_numbered, carriedSlots, List.length_map, List.length_range]) fun i hi hi' => ?_
  rw [length_numbered] at hi'
  simp [carriedSlots, numbered, h i _ (List.getElem?_eq_getElem hi')]

/-- A TEMPLATE record, read by its owner. -/
structure ReadsTemplate (b : List Byte) (tag number width height bandHeight : Nat) (background placeholder ink : Rgb)
    (slots : List SlotFields) : Prop where
  tag : recTag b = tag
  number : field b 8 1 = number
  width : field b 10 2 = width
  height : field b 12 2 = height
  bandHeight : field b 14 2 = bandHeight
  count : field b 16 2 = slots.length
  background : rgbAt b 18 = background
  placeholder : rgbAt b 21 = placeholder
  ink : rgbAt b 24 = ink
  length : b.length = 32 + 20 * slots.length
  slots : carriedSlots b slots.length = numbered slots

theorem templateRecord_length (tag number width height bandHeight : Nat) (background placeholder ink : Rgb)
    (slots : List SlotFields) : (templateRecord tag number width height bandHeight background placeholder ink slots).length =
      32 + 20 * slots.length := by
  rw [templateRecord, recordBytes_length]
  simp [Sys2Proof.Laws.slotEntryBytes_length, rgbBytes]
  omega

theorem field_one (b : List Byte) (o : Nat) : field b o 1 = (byteAt b o).toNat := by
  unfold field byteAt
  by_cases h : o < b.length
  · rw [List.getElem?_eq_getElem h, List.drop_eq_getElem_cons h, List.take_succ_cons, List.take_zero,
      beNumber, List.foldl_cons, List.foldl_nil, Nat.zero_mul, Nat.zero_add, Option.getD_some]
  · rw [List.getElem?_eq_none (Nat.le_of_not_lt h), List.drop_eq_nil_of_le (Nat.le_of_not_lt h)]
    rfl

theorem rgbAt_of_fields {b : List Byte} {o : Nat} {c : Rgb} (hr : field b o 1 = c.r.toNat)
    (hg : field b (o + 1) 1 = c.g.toNat) (hb : field b (o + 2) 1 = c.b.toNat) : rgbAt b o = c := by
  rw [field_one] at hr hg hb
  rw [rgbAt, BitVec.eq_of_toNat_eq hr, BitVec.eq_of_toNat_eq hg, BitVec.eq_of_toNat_eq hb]

theorem templateRecord_reads {ch : Chan} {tag number width height bandHeight : Nat} {background placeholder ink : Rgb}
    {slots : List SlotFields}
    (hw : (Instr.template ch tag number width height bandHeight background placeholder ink slots).wf = true) :
    ReadsTemplate (templateRecord tag number width height bandHeight background placeholder ink slots) tag number width height
      bandHeight background placeholder ink slots := by
  obtain ⟨_, ⟨⟩, -, htag, hfields, -⟩ :=
    (template_readsBack ch tag number width height bandHeight background placeholder ink slots).reads hw _ _ rfl
  have slotsRead := template_slots ch tag number width height bandHeight background placeholder ink slots hw
  have hlength := templateRecord_length tag number width height bandHeight background placeholder ink slots
  generalize templateRecord tag number width height bandHeight background placeholder ink slots = b at *
  have reads (o w v : Nat) (h : (o, w, v) ∈ _) : field b o w = v := hfields (o, w, v) h
  exact {
    tag := htag
    number := reads 8 1 _ (by simp)
    width := reads 10 2 _ (by simp)
    height := reads 12 2 _ (by simp)
    bandHeight := reads 14 2 _ (by simp)
    count := reads 16 2 _ (by simp)
    background := rgbAt_of_fields (reads 18 1 _ (by simp)) (reads 19 1 _ (by simp)) (reads 20 1 _ (by simp))
    placeholder := rgbAt_of_fields (reads 21 1 _ (by simp)) (reads 22 1 _ (by simp)) (reads 23 1 _ (by simp))
    ink := rgbAt_of_fields (reads 24 1 _ (by simp)) (reads 25 1 _ (by simp)) (reads 26 1 _ (by simp))
    length := hlength
    slots := carriedSlots_eq_numbered slotsRead }

/-! ## The slot conditions (R74, steps 4 to 6) -/

/-- The slot's kind is none of the four. -/
def slotUnknown (f : SlotFields) : Bool := decide (f.kind = 0 ∨ 4 < f.kind)

/-- A PORTRAIT slot with a cell above 79. -/
def cellBeyond (f : SlotFields) : Bool := decide (f.kind = 2 ∧ 79 < f.cell)

/-- Slot `i` is a PORTRAIT slot whose cell an earlier PORTRAIT slot carries. -/
def cellRepeated (slots : List SlotFields) (i : Nat) : Bool :=
  (slots[i]?).any fun f => decide (f.kind = 2) && (slots.take i).any fun g => decide (g.kind = 2 ∧ g.cell = f.cell)

theorem slotUnknown_eq (f : SlotFields) : slotUnknown f = !slotKnown f := by
  rw [slotUnknown, slotKnown, ← Bool.decide_and, ← decide_not, decide_eq_decide]
  omega

theorem cellBeyond_eq (f : SlotFields) : cellBeyond f = (isPortraitSlot f && decide (Config.cellMax < f.cell)) :=
  Bool.decide_and ..

/-- The first slot that meets a test, found by its fields, is the first index at which they meet it. -/
theorem find?_numbered (p : SlotFields → Bool) (slots : List SlotFields) :
    ((numbered slots).find? fun s => p s.2).map Prod.fst = slots.findIdx? p := by
  rw [numbered, List.find?_map, Option.map_map, List.findIdx?_eq_fst_find?_zipIdx]
  rfl

theorem cellRepeated_append (pre : List SlotFields) (f : SlotFields) (rest : List SlotFields) :
    cellRepeated (pre ++ f :: rest) pre.length =
      (isPortraitSlot f && pre.any fun g => decide (g.kind = 2 ∧ g.cell = f.cell)) := by
  rw [cellRepeated, List.getElem?_append_right (Nat.le_refl _), Nat.sub_self, List.take_left]
  rfl

/-- The walk of R74's step 6 from slot `pre.length` on, the cells of the PORTRAIT slots before it seen. -/
theorem firstRepeatedCell_from {seen : List Nat} {pre rest : List SlotFields}
    (hseen : ∀ c, seen.contains c = pre.any fun g => decide (g.kind = 2 ∧ g.cell = c)) :
    firstRepeatedCell seen ((rest.zipIdx pre.length).map Prod.swap) =
      (List.range' pre.length rest.length).find? (cellRepeated (pre ++ rest)) := by
  induction rest generalizing seen pre with
  | nil => rfl
  | cons f rest ih =>
    have hnext : ∀ seen' : List Nat,
        (∀ c, seen'.contains c = (pre ++ [f]).any fun g => decide (g.kind = 2 ∧ g.cell = c)) →
        firstRepeatedCell seen' ((rest.zipIdx (pre.length + 1)).map Prod.swap) =
          (List.range' (pre.length + 1) rest.length).find? (cellRepeated (pre ++ f :: rest)) := by
      intro seen' h
      have := ih h
      rwa [List.length_append, List.length_singleton, List.append_assoc, List.singleton_append] at this
    rw [List.zipIdx_cons, List.map_cons, List.length_cons, List.range'_succ, List.find?_cons, cellRepeated_append, ← hseen,
      Prod.swap, firstRepeatedCell]
    by_cases hp : isPortraitSlot f = true
    · rw [if_pos hp, hp, Bool.true_and]
      by_cases hc : seen.contains f.cell = true
      · rw [if_pos hc, hc]
      · rw [if_neg hc, Bool.eq_false_iff.2 hc]
        refine hnext _ fun c => ?_
        have hkind : f.kind = 2 := of_decide_eq_true hp
        rw [List.contains_cons, List.any_append, ← hseen, Bool.or_comm]
        simp [hkind, eq_comm, beq_eq_decide]
    · rw [if_neg hp, Bool.eq_false_iff.2 hp, Bool.false_and]
      refine hnext _ fun c => ?_
      have hkind : f.kind ≠ 2 := fun e => hp (decide_eq_true e)
      rw [List.any_append, ← hseen]
      simp [hkind]

theorem firstRepeatedCell_numbered (slots : List SlotFields) :
    firstRepeatedCell [] (numbered slots) = (List.range slots.length).find? (cellRepeated slots) := by
  rw [List.range_eq_range']
  exact firstRepeatedCell_from (pre := []) fun _ => rfl

/-- The first step that fails, with the first slot at fault (R74). -/
theorem slotFault_numbered (slots : List SlotFields) : slotFault (numbered slots) =
    (((slots.findIdx? slotUnknown).map (4, ·)).or
      (((slots.findIdx? cellBeyond).map (5, ·)).or
        (((List.range slots.length).find? (cellRepeated slots)).map (6, ·)))) := by
  rw [← find?_numbered, ← find?_numbered, ← firstRepeatedCell_numbered]
  simp only [slotUnknown_eq, cellBeyond_eq]
  unfold slotFault
  split
  · rename_i h; rw [h]; rfl
  · rename_i h
    rw [h]
    split
    · rename_i h; rw [h]; rfl
    · rename_i h; rw [h]; rfl

/-! ## Loading (R80, R81) -/

/-- The settled template stands in buffer `i`, and TEMPLATE-LOADED is posted with a disposition (R81). -/
def State.templateLoaded (i : Fin 12) (x : SettledTemplate) (disposition : Nat) (s : State) : State :=
  notify .templateLoaded x.buffer.tag x.buffer.number
    [.two i, .two x.carried, .two x.kept, .two x.clipped, .two x.defaulted, .two x.droppedEmpty, .two x.droppedUnpaired,
      .two x.buffer.bandCount, flagItem [x.buffer.sizeClamped, x.buffer.bandDefaulted], .two disposition]
    (setTemplate i (some x.buffer) s)

/-- A number has no mapped buffer, or one that is not FREE (5.4). -/
theorem mappedBuffer_cases (number : Nat) (s : State) :
    s.mappedBuffer number = none ∨ ∃ k old, s.mappedBuffer number = some k ∧ s.templates[k] = some old := by
  cases h : s.mappedBuffer number with
  | none => exact .inl rfl
  | some k =>
    have hk := List.find?_some h
    cases hold : s.templates[k] with
    | none => rw [hold] at hk; cases hk
    | some old => exact .inr ⟨k, old, rfl, hold⟩

section

variable {i k : Fin 12} {x : SettledTemplate} {s : State} {old : TemplateBuffer}

theorem loadTemplate_new (h : s.mappedBuffer x.buffer.number = none) : loadTemplate i x s = s.templateLoaded i x 1 := by
  simp only [loadTemplate, h]
  rfl

theorem loadTemplate_frees (h : s.mappedBuffer x.buffer.number = some k) (hold : s.templates[k] = some old)
    (hp : old.pins = 0) :
    loadTemplate i x s =
      notify .templateFreed x.buffer.tag x.buffer.number [.two k] ((wakeUp (setTemplate k none s)).templateLoaded i x 2) := by
  have hprev : unmapPrevious x.buffer.tag (some k) s = (wakeUp (setTemplate k none s), 2) := by
    simp only [unmapPrevious, hold]
    exact if_pos hp
  simp only [loadTemplate, h, hprev]
  rfl

theorem loadTemplate_supersedes (h : s.mappedBuffer x.buffer.number = some k) (hold : s.templates[k] = some old)
    (hp : old.pins ≠ 0) :
    loadTemplate i x s =
      (setTemplate k (some { old with superseded := some x.buffer.tag }) s).templateLoaded i x 3 := by
  have hprev : unmapPrevious x.buffer.tag (some k) s =
      (setTemplate k (some { old with superseded := some x.buffer.tag }) s, 3) := by
    simp only [unmapPrevious, hold]
    exact if_neg hp
  simp only [loadTemplate, h, hprev]
  rfl

end

theorem setTemplate_sameRest (i : Fin 12) (t : Option TemplateBuffer) (s : State) : SameRest s (setTemplate i t s) :=
  ⟨⟨rfl, rfl⟩, rfl, rfl, rfl, rfl, rfl, rfl⟩

theorem wakeUp_sameRest (s : State) : SameRest s (wakeUp s) :=
  ⟨⟨rfl, rfl⟩, rfl, rfl, rfl, rfl, rfl, rfl⟩

theorem templateLoaded_sameRest (i : Fin 12) (x : SettledTemplate) (disposition : Nat) (s : State) :
    SameRest s (s.templateLoaded i x disposition) :=
  (setTemplate_sameRest ..).trans (notify_sameRest ..)

theorem loadTemplate_sameRest (i : Fin 12) (x : SettledTemplate) (s : State) : SameRest s (loadTemplate i x s) := by
  obtain h | ⟨k, old, h, hold⟩ := mappedBuffer_cases x.buffer.number s
  · rw [loadTemplate_new h]
    exact templateLoaded_sameRest ..
  · by_cases hp : old.pins = 0
    · rw [loadTemplate_frees h hold hp]
      exact (((setTemplate_sameRest ..).trans (wakeUp_sameRest _)).trans (templateLoaded_sameRest ..)).trans
        (notify_sameRest ..)
    · rw [loadTemplate_supersedes h hold hp]
      exact (setTemplate_sameRest ..).trans (templateLoaded_sameRest ..)

theorem templateLoaded_holding (i : Fin 12) (x : SettledTemplate) (disposition : Nat) (ch : Chan) (b : List Byte) (s : State) :
    (s.holding ch b).templateLoaded i x disposition = (s.templateLoaded i x disposition).holding ch b := by
  have hset : setTemplate i (some x.buffer) (s.holding ch b) = (setTemplate i (some x.buffer) s).holding ch b := rfl
  unfold State.templateLoaded
  rw [hset, State.holding, notify_modChan]
  rfl

theorem loadTemplate_holding (i : Fin 12) (x : SettledTemplate) (ch : Chan) (b : List Byte) (s : State) :
    loadTemplate i x (s.holding ch b) = (loadTemplate i x s).holding ch b := by
  obtain h | ⟨k, old, h, hold⟩ := mappedBuffer_cases x.buffer.number s
  · rw [loadTemplate_new h, loadTemplate_new (s := s.holding ch b) h, templateLoaded_holding]
  · have hset (t : Option TemplateBuffer) : setTemplate k t (s.holding ch b) = (setTemplate k t s).holding ch b := rfl
    have hwake (u : State) : wakeUp (u.holding ch b) = (wakeUp u).holding ch b := rfl
    by_cases hp : old.pins = 0
    · rw [loadTemplate_frees h hold hp, loadTemplate_frees (s := s.holding ch b) h hold hp, hset, hwake,
        templateLoaded_holding]
      exact notify_modChan ..
    · rw [loadTemplate_supersedes h hold hp, loadTemplate_supersedes (s := s.holding ch b) h hold hp, hset,
        templateLoaded_holding]

/-! ## The owner's verdict (R74) -/

section

variable {ch : Chan} {b : List Byte} {s : State} {tag number width height bandHeight : Nat} {background placeholder ink : Rgb}
  {slots : List SlotFields}
  (reads : ReadsTemplate b tag number width height bandHeight background placeholder ink slots)

include reads

theorem ReadsTemplate.badNumber (h : 7 < number) : judgeTemplate ch b s = .refused .badField [] := by
  simp only [judgeTemplate, reads.number, if_pos h]

theorem ReadsTemplate.tooMany (hn : ¬ 7 < number) (h : 192 < slots.length) :
    judgeTemplate ch b s = .refused .badTemplate [.two 2, .two 0] := by
  simp only [judgeTemplate, reads.number, reads.count, if_neg hn]
  exact if_pos h

/-- Past the first three steps the slots decide (R74): step 3, the record's length, no well-formed command fails. -/
theorem ReadsTemplate.bySlots (hn : ¬ 7 < number) (hc : ¬ 192 < slots.length) :
    judgeTemplate ch b s =
      match slotFault (numbered slots) with
      | some (step, i) => .refused .badTemplate [.two step, .two i]
      | none =>
        match s.freeTemplateBuffer with
        | none => .deferred .templateBuffer
        | some i =>
          if s.olderWaiter ch .templateBuffer then .deferred .templateBuffer
          else .taken (loadTemplate i (settleTemplate b) s) := by
  unfold judgeTemplate
  dsimp only
  rw [reads.number, reads.count, reads.slots, if_neg hn, if_neg (not_not_intro reads.length)]
  exact if_neg hc

theorem ReadsTemplate.faulty (hn : ¬ 7 < number) (hc : ¬ 192 < slots.length) {step i : Nat}
    (h : slotFault (numbered slots) = some (step, i)) :
    judgeTemplate ch b s = .refused .badTemplate [.two step, .two i] := by
  rw [reads.bySlots hn hc, h]

theorem ReadsTemplate.waits (hn : ¬ 7 < number) (hc : ¬ 192 < slots.length) (h : slotFault (numbered slots) = none)
    (hfree : s.freeTemplateBuffer = none) : judgeTemplate ch b s = .deferred .templateBuffer := by
  rw [reads.bySlots hn hc, h, hfree]

theorem ReadsTemplate.loads (hn : ¬ 7 < number) (hc : ¬ 192 < slots.length) (h : slotFault (numbered slots) = none)
    {i : Fin 12} (hfree : s.freeTemplateBuffer = some i) (hw : s.waiting = []) :
    judgeTemplate ch b s = .taken (loadTemplate i (settleTemplate b) s) := by
  rw [reads.bySlots hn hc, h, hfree]
  exact if_neg (by rw [olderWaiter_none hw]; decide)

end

/-- Settles O18: the steps of the judging order one after the other, then the FREE buffer. -/
theorem template : Obligations.Template := by
  intro ch tag number width height bandHeight background placeholder ink slots s hq hw b unknown beyond repeated refused
  have r : CarriedRecord b .template _ := carriedRecord
    (c := .template ch tag number width height bandHeight background placeholder ink slots) hw rfl rfl rfl
  have reads : ReadsTemplate b tag number width height bandHeight background placeholder ink slots := templateRecord_reads hw
  have hexec : exec (.template ch tag number width height bandHeight background placeholder ink slots) s =
      .next (deliver ch b s.cleared) := exec_wireRecord hq.up rfl
  have hfault : slotFault (numbered slots) =
      (unknown.map (4, ·)).or ((beyond.map (5, ·)).or (repeated.map (6, ·))) := slotFault_numbered slots
  have hq' := quiet_cleared hq
  rw [hexec]
  clear_value b unknown beyond repeated
  congr 1
  split
  case isTrue hnumber => exact r.refused hq' rfl (reads.badNumber hnumber)
  case isFalse hnumber =>
    split
    case isTrue hcount => exact r.refused hq' rfl (reads.tooMany hnumber hcount)
    case isFalse hcount =>
      have faulty {step i : Nat} (h : slotFault (numbered slots) = some (step, i)) :
          deliver ch b s.cleared = refused step i := r.refused hq' rfl (reads.faulty hnumber hcount h)
      split
      · exact faulty hfault
      · exact faulty hfault
      · exact faulty hfault
      · split
        case h_1 hfree => exact r.deferred hq' rfl (reads.waits hnumber hcount hfault hfree)
        case h_2 i hfree =>
          have hj := reads.loads (ch := ch) (s := s.cleared.holding ch b) hnumber hcount hfault hfree hq.noWaiters
          rw [loadTemplate_holding] at hj
          exact r.taken hq' rfl hj (loadTemplate_sameRest ..)

end Sys2Proof.Machine
end

section
/-! PROOF. What a TEMPLATE settles to, and what its loading does to the buffers (R75 to R78, R80, R81). -/

namespace Sys2Proof.Machine

/-! ## The slots kept (R76 to R78) -/

/-- The slot reaches into a page of pw × ph: clipped to it, it is not empty (R77). -/
abbrev Reaches (pw ph : Nat) (f : SlotFields) : Prop := f.x < pw ∧ f.y < ph ∧ 0 < f.w ∧ 0 < f.h

/-- The slot is kept: it reaches into the page, and a CAPTION pairs the cell of a PORTRAIT slot that does (R77, R78). -/
def Keeps (pw ph : Nat) (slots : List SlotFields) (f : SlotFields) : Prop :=
  Reaches pw ph f ∧ (f.kind = 3 → ∃ g ∈ slots, g.kind = 2 ∧ g.cell = f.paired ∧ Reaches pw ph g)

/-- The cells of the PORTRAIT slots that reach into the page (R78). -/
def portraitCells (pw ph : Nat) (all : List (Nat × SlotFields)) : List Nat :=
  ((keptByClip pw ph all).filter fun s => isPortraitSlot s.2).map fun s => s.2.cell

/-- The slots that a TEMPLATE keeps of those it carries, with their indices (R77, R78). -/
def slotsKept (pw ph : Nat) (all : List (Nat × SlotFields)) : List (Nat × SlotFields) :=
  (keptByClip pw ph all).filter fun s => !unpaired (portraitCells pw ph all) s.2

/-- A slot as the band index holds it (R76, R77). -/
def settledSlot (pw ph : Nat) (s : Nat × SlotFields) : Slot :=
  { index := s.1, rect := clipSlot pw ph s.2, kind := settledKind s.2 }

section

variable {pw ph : Nat}

theorem clipSlot_of_reaches {f : SlotFields} (h : Reaches pw ph f) :
    clipSlot pw ph f = { x := f.x, y := f.y, w := min f.w (pw - f.x), h := min f.h (ph - f.y) } := by
  refine if_neg ?_
  rw [Bool.or_eq_true, decide_eq_true_eq, decide_eq_true_eq]
  omega

theorem clipSlot_nonempty_iff (f : SlotFields) : (!(clipSlot pw ph f).empty) = true ↔ Reaches pw ph f := by
  unfold clipSlot Rect.empty
  split
  case isTrue h =>
    rw [Bool.or_eq_true, decide_eq_true_eq, decide_eq_true_eq] at h
    exact iff_of_false nofun (by omega)
  case isFalse h =>
    rw [Bool.or_eq_true, decide_eq_true_eq, decide_eq_true_eq] at h
    simp only [Bool.not_eq_true', Bool.or_eq_false_iff, decide_eq_false_iff_not]
    omega

theorem isClipped_of_reaches {f : SlotFields} (h : Reaches pw ph f) :
    isClipped pw ph f = decide (pw < f.x + f.w ∨ ph < f.y + f.h) := by
  unfold isClipped
  rw [clipSlot_of_reaches h, Bool.eq_iff_iff]
  simp only [Bool.or_eq_true, decide_eq_true_eq]
  omega

theorem slotDefaulted_eq (f : SlotFields) :
    slotDefaulted f = decide ((f.kind = 3 ∨ f.kind = 4) ∧ (1 < f.font ∨ 2 < f.align)) := by
  rw [slotDefaulted, ← Bool.decide_or, ← Bool.decide_or, ← Bool.decide_and]

variable {slots : List SlotFields}

theorem mem_keptByClip {i : Nat} {f : SlotFields} :
    (i, f) ∈ keptByClip pw ph (numbered slots) ↔ slots[i]? = some f ∧ Reaches pw ph f := by
  rw [keptByClip, List.mem_filter, mem_numbered, clipSlot_nonempty_iff]

theorem mem_portraitCells {c : Nat} : c ∈ portraitCells pw ph (numbered slots) ↔
    ∃ g ∈ slots, g.kind = 2 ∧ g.cell = c ∧ Reaches pw ph g := by
  simp only [portraitCells, List.mem_map, List.mem_filter, Prod.exists, mem_keptByClip, isPortraitSlot, decide_eq_true_eq]
  constructor
  · rintro ⟨i, g, ⟨⟨hg, hreach⟩, hkind⟩, hcell⟩
    exact ⟨g, List.mem_of_getElem? hg, hkind, hcell, hreach⟩
  · rintro ⟨g, hg, hkind, hcell, hreach⟩
    obtain ⟨i, hg⟩ := List.mem_iff_getElem?.1 hg
    exact ⟨i, g, ⟨⟨hg, hreach⟩, hkind⟩, hcell⟩

theorem mem_slotsKept {i : Nat} {f : SlotFields} :
    (i, f) ∈ slotsKept pw ph (numbered slots) ↔ slots[i]? = some f ∧ Keeps pw ph slots f := by
  have hpaired : (!unpaired (portraitCells pw ph (numbered slots)) f) = true ↔
      (f.kind = 3 → ∃ g ∈ slots, g.kind = 2 ∧ g.cell = f.paired ∧ Reaches pw ph g) := by
    rw [← mem_portraitCells]
    simp [unpaired, imp_iff_not_or]
  rw [slotsKept, List.mem_filter, mem_keptByClip, hpaired, and_assoc, Keeps]

theorem countP_not_reaches :
    (numbered slots).length - (keptByClip pw ph (numbered slots)).length = slots.countP fun f => decide ¬Reaches pw ph f := by
  have hsplit := List.length_eq_countP_add_countP (fun s : Nat × SlotFields => !(clipSlot pw ph s.2).empty) (l := numbered slots)
  have hrest : (numbered slots).countP (fun s => decide ¬(!(clipSlot pw ph s.2).empty) = true) =
      slots.countP fun f => decide ¬Reaches pw ph f := by
    simp only [clipSlot_nonempty_iff]
    conv_rhs => rw [← numbered_map_snd slots, List.countP_map]
    rfl
  rw [keptByClip, ← List.countP_eq_length_filter, hsplit, hrest, Nat.add_sub_cancel_left]

/-! ## The band index (R76 to R79) -/

variable {bandIndex : List Slot} (h : bandIndex.Perm ((slotsKept pw ph (numbered slots)).map (settledSlot pw ph)))

include h

theorem mem_bandIndex (k : Slot) : k ∈ bandIndex ↔ ∃ f, slots[k.index]? = some f ∧ Keeps pw ph slots f ∧
    k.rect = { x := f.x, y := f.y, w := min f.w (pw - f.x), h := min f.h (ph - f.y) } ∧ k.kind = settledKind f := by
  rw [h.mem_iff, List.mem_map]
  constructor
  · rintro ⟨⟨i, f⟩, hmem, rfl⟩
    obtain ⟨hf, hkeeps⟩ := mem_slotsKept.1 hmem
    exact ⟨f, hf, hkeeps, clipSlot_of_reaches hkeeps.1, rfl⟩
  · rintro ⟨f, hf, hkeeps, hrect, hkind⟩
    refine ⟨(k.index, f), mem_slotsKept.2 ⟨hf, hkeeps⟩, ?_⟩
    rw [settledSlot, clipSlot_of_reaches hkeeps.1, ← hrect, ← hkind]

theorem bandIndex_inside {k : Slot} (hk : k ∈ bandIndex) :
    1 ≤ k.rect.w ∧ 1 ≤ k.rect.h ∧ k.rect.x + k.rect.w ≤ pw ∧ k.rect.y + k.rect.h ≤ ph := by
  obtain ⟨f, -, ⟨hreach, -⟩, hrect, -⟩ := (mem_bandIndex h k).1 hk
  rw [hrect]
  dsimp only
  omega

theorem bandIndex_nodup : (bandIndex.map (·.index)).Nodup := by
  rw [(h.map (·.index)).nodup_iff, List.map_map]
  have hsub : ((slotsKept pw ph (numbered slots)).map Prod.fst).Sublist ((numbered slots).map Prod.fst) :=
    ((List.filter_sublist).trans List.filter_sublist).map _
  rw [numbered_map_fst] at hsub
  exact (List.nodup_range' (s := 0)).sublist hsub

/-- Kept slots that meet a test of their carried fields are counted in the band index, by their slot index. -/
theorem countP_bandIndex {p q : SlotFields → Bool} (hpq : ∀ f, Reaches pw ph f → p f = q f) :
    (slotsKept pw ph (numbered slots)).countP (fun s => p s.2) = bandIndex.countP fun k => (slots[k.index]?).any q := by
  rw [h.countP_eq, List.countP_map]
  refine List.countP_congr fun ⟨i, f⟩ hmem => ?_
  obtain ⟨hf, hreach, -⟩ := mem_slotsKept.1 hmem
  have hat : slots[(settledSlot pw ph (i, f)).index]? = some f := hf
  rw [Function.comp_apply, hat, Option.any_some, hpq f hreach]

end

/-! ## The counts (R76 to R78, R81) -/

/-- A settled template, against the slots that its record carried: what it keeps, and what it counts. -/
structure SettlesTo (slots : List SlotFields) (x : SettledTemplate) : Prop where
  index : x.buffer.bandIndex.Perm
    ((slotsKept x.buffer.width x.buffer.height (numbered slots)).map (settledSlot x.buffer.width x.buffer.height))
  carried : x.carried = slots.length
  kept : x.kept = (slotsKept x.buffer.width x.buffer.height (numbered slots)).length
  clipped : x.clipped = (slotsKept x.buffer.width x.buffer.height (numbered slots)).countP fun s =>
    isClipped x.buffer.width x.buffer.height s.2
  defaulted : x.defaulted = (slotsKept x.buffer.width x.buffer.height (numbered slots)).countP fun s => slotDefaulted s.2
  droppedEmpty : x.droppedEmpty = slots.length - (keptByClip x.buffer.width x.buffer.height (numbered slots)).length
  droppedUnpaired : x.droppedUnpaired = (keptByClip x.buffer.width x.buffer.height (numbered slots)).length - x.kept

theorem settleTemplate_settlesTo {b : List Byte} {slots : List SlotFields}
    (h : carriedSlots b (field b 16 2) = numbered slots) : SettlesTo slots (settleTemplate b) where
  index := by rw [← h]; exact sortBy_perm ..
  carried := by rw [← length_numbered, ← h]; rfl
  kept := by rw [← h]; rfl
  clipped := by rw [← h]; rfl
  defaulted := by rw [← h]; rfl
  droppedEmpty := by rw [← length_numbered, ← h]; rfl
  droppedUnpaired := by rw [← h]; rfl

section

variable {slots : List SlotFields} {x : SettledTemplate} (settles : SettlesTo slots x)

include settles

theorem SettlesTo.kept_eq : x.kept = x.buffer.bandIndex.length := by
  rw [settles.kept, settles.index.length_eq, List.length_map]

/-- Every slot carried is kept, dropped as empty, or dropped as unpaired. -/
theorem SettlesTo.balance : x.carried = x.kept + x.droppedEmpty + x.droppedUnpaired := by
  have hclip : (keptByClip x.buffer.width x.buffer.height (numbered slots)).length ≤ slots.length :=
    length_numbered slots ▸ List.length_filter_le ..
  have hpair : x.kept ≤ (keptByClip x.buffer.width x.buffer.height (numbered slots)).length :=
    settles.kept ▸ List.length_filter_le ..
  rw [settles.carried, settles.droppedEmpty, settles.droppedUnpaired]
  omega

theorem SettlesTo.droppedEmpty_eq :
    x.droppedEmpty = slots.countP fun f => decide ¬Reaches x.buffer.width x.buffer.height f := by
  rw [settles.droppedEmpty, ← length_numbered, countP_not_reaches]

theorem SettlesTo.clipped_eq : x.clipped = x.buffer.bandIndex.countP fun k => (slots[k.index]?).any fun f =>
    decide (x.buffer.width < f.x + f.w ∨ x.buffer.height < f.y + f.h) :=
  settles.clipped.trans (countP_bandIndex settles.index fun _ => isClipped_of_reaches)

theorem SettlesTo.defaulted_eq : x.defaulted = x.buffer.bandIndex.countP fun k => (slots[k.index]?).any fun f =>
    decide ((f.kind = 3 ∨ f.kind = 4) ∧ (1 < f.font ∨ 2 < f.align)) :=
  settles.defaulted.trans (countP_bandIndex settles.index fun f _ => slotDefaulted_eq f)

end

/-! ## The page (R75) -/

theorem settledBandHeight_eq (bandHeight : Nat) :
    settledBandHeight bandHeight = if bandHeight ∈ [16, 32, 64, 128] then bandHeight else 64 := by
  simp only [settledBandHeight, Bool.or_eq_true, decide_eq_true_eq, List.mem_cons, List.not_mem_nil, or_false, or_assoc]

theorem settledBandHeight_ne_iff (bandHeight : Nat) :
    settledBandHeight bandHeight ≠ bandHeight ↔ bandHeight ∉ [16, 32, 64, 128] := by
  rw [settledBandHeight_eq]
  split
  case isTrue h => exact iff_of_false (not_not_intro rfl) (not_not_intro h)
  case isFalse h =>
    refine iff_of_true (fun e => h ?_) h
    rw [← e]
    decide

/-! ## What a loading does to the buffers (R80, R81) -/

theorem templateLoaded_templates (i k : Fin 12) (x : SettledTemplate) (disposition : Nat) (s : State) :
    (s.templateLoaded i x disposition).templates[k] = if k = i then some x.buffer else s.templates[k] := by
  rw [State.templateLoaded, notify_templates]
  exact getElem_set_fin ..

/-- The number's previous buffer, once the number names another: FREE, or SUPERSEDED with the record's tag (R80). -/
def TemplateBuffer.unmapped (tag : Nat) (old : TemplateBuffer) : Option TemplateBuffer :=
  if old.pins = 0 then none else some { old with superseded := some tag }

theorem loadTemplate_templates (i k : Fin 12) (x : SettledTemplate) (s : State) :
    (loadTemplate i x s).templates[k] =
      if k = i then some x.buffer
      else if s.mappedBuffer x.buffer.number = some k then s.templates[k].bind (TemplateBuffer.unmapped x.buffer.tag)
      else s.templates[k] := by
  obtain h | ⟨j, old, h, hold⟩ := mappedBuffer_cases x.buffer.number s
  · rw [loadTemplate_new h, templateLoaded_templates, h]
    rfl
  · have hset (t : Option TemplateBuffer) : (setTemplate j t s).templates[k] = if k = j then t else s.templates[k] :=
      getElem_set_fin ..
    have hbuffer : (loadTemplate i x s).templates[k] =
        if k = i then some x.buffer else if k = j then old.unmapped x.buffer.tag else s.templates[k] := by
      unfold TemplateBuffer.unmapped
      by_cases hp : old.pins = 0
      · rw [loadTemplate_frees h hold hp, notify_templates, templateLoaded_templates, wakeUp_templates, hset, if_pos hp]
      · rw [loadTemplate_supersedes h hold hp, templateLoaded_templates, hset, if_neg hp]
    rw [hbuffer, h]
    by_cases hk : k = j
    · subst hk
      rw [if_pos rfl, if_pos rfl, hold]
      rfl
    · rw [if_neg hk, if_neg fun e => hk (Option.some.inj e).symm]

/-- Settles O19: the settled fields are read off the record, the band index holds the slots kept in another order, and a loading
is one of its three cases. -/
theorem templateLoads : Obligations.TemplateLoads := by
  refine ⟨?_, ?_, ?_⟩
  · intro ch tag number width height bandHeight background placeholder ink slots hw x
    have reads := templateRecord_reads hw
    have hx : x = settleTemplate (templateRecord tag number width height bandHeight background placeholder ink slots) := rfl
    clear_value x
    generalize templateRecord tag number width height bandHeight background placeholder ink slots = b at reads hx
    clear hw
    subst hx
    obtain ⟨rfl, rfl, rfl, rfl, rfl, hcount, rfl, rfl, rfl, -, hslots⟩ := reads
    have hall : carriedSlots b (field b 16 2) = numbered slots := by rw [hcount, hslots]
    have settles := settleTemplate_settlesTo hall
    exact ⟨rfl, rfl, rfl, rfl, rfl, rfl, (Bool.decide_or ..).symm, settledBandHeight_eq _,
      decide_eq_decide.2 (settledBandHeight_ne_iff _), rfl, rfl, rfl, hcount, settles.carried, settles.kept_eq, settles.balance,
      fun k => bandIndex_inside settles.index, mem_bandIndex settles.index, bandIndex_nodup settles.index,
      settles.droppedEmpty_eq, settles.clipped_eq, settles.defaulted_eq⟩
  · intro i x s hfree number tag loaded
    obtain h | ⟨k, old, h, hold⟩ := mappedBuffer_cases x.buffer.number s
    · rw [h]
      exact loadTemplate_new h
    · rw [h]
      dsimp only
      rw [hold]
      dsimp only
      split
      case isTrue hp => exact loadTemplate_frees h hold hp
      case isFalse hp => exact loadTemplate_supersedes h hold hp
  · intro i x s hfree
    refine ⟨?_, fun k hk => ?_⟩
    · rw [loadTemplate_templates, if_pos rfl]
    · rw [loadTemplate_templates, if_neg hk]
      split
      case isTrue h => cases s.templates[k] <;> rfl
      case isFalse h => rfl

end Sys2Proof.Machine
end

section
/-! PROOF. The page queue and the band area: every move keeps the ids distinct, the bounds of the records, one page in GATHERING
and the balance of the band buffers (6, R91, R92, R95, R106, R133). -/

namespace Sys2Proof.Machine

/-! ## The members of a list of distinct keys -/

/-- A member of a list of distinct keys is the one that its key finds. -/
theorem find?_key_of_mem {α β : Type} [DecidableEq β] {f : α → β} {l : List α} (hl : (l.map f).Nodup) {x : α} (hx : x ∈ l) :
    l.find? (fun a => f a = f x) = some x := by
  induction l with
  | nil => cases hx
  | cons a rest ih =>
    rw [List.map_cons, List.nodup_cons] at hl
    obtain ⟨hnew, hrest⟩ := hl
    rcases List.mem_cons.1 hx with rfl | hx
    · exact List.find?_cons_of_pos (decide_eq_true rfl)
    · have hne : ¬ f a = f x := fun e => hnew (e ▸ List.mem_map_of_mem hx)
      rw [List.find?_cons_of_neg (by simpa using hne)]
      exact ih hrest hx

theorem countP_replaceFirst {α : Type} {p : α → Bool} (f : α → Bool) (x : α) {y : α} {l : List α} (hy : l.find? p = some y) :
    (replaceFirst p x l).countP f + (f y).toNat = l.countP f + (f x).toNat := by
  induction l with
  | nil => cases hy
  | cons a rest ih =>
    by_cases ha : p a = true
    · rw [List.find?_cons_of_pos ha, Option.some.injEq] at hy
      subst hy
      rw [replaceFirst, if_pos ha, List.countP_cons, List.countP_cons]
      simp only [Bool.toNat, Bool.cond_eq_ite]
      omega
    · rw [List.find?_cons_of_neg ha] at hy
      have := ih hy
      rw [replaceFirst, if_neg ha, List.countP_cons, List.countP_cons]
      omega

/-! ## The page queue (6, R91, R92, R95, R106, R133) -/

/-- The page queue is legal and balances with the free band buffers. -/
structure PageQueueLegal (s : State) : Prop where
  distinct : PageIdsDistinct s
  balance : BuffersBalance s
  legal : PagesLegal s

theorem PageQueueLegal.page?_of_mem {s : State} (h : PageQueueLegal s) {p : Page} (hp : p ∈ s.pages) : s.page? p.id = some p :=
  find?_key_of_mem h.distinct hp

theorem gatheringPage_eq_none_iff {s : State} : s.gatheringPage = none ↔ s.pages.countP (·.state = .gathering) = 0 := by
  rw [State.gatheringPage, List.find?_eq_none, List.countP_eq_zero]

theorem PageQueueLegal.empty {s : State} (hp : s.pages = []) (hf : s.freeBuffers = List.range Config.bandBufferCount) :
    PageQueueLegal s where
  distinct := by rw [PageIdsDistinct, hp]; exact List.nodup_nil
  balance := by rw [BuffersBalance, hp, hf, List.length_range]; rfl
  legal := ⟨by rw [hp]; exact Nat.zero_le _, by rw [hp]; exact nofun, by rw [hp]; exact nofun, by rw [hp]; exact Nat.zero_le _⟩

/-- A page without band records joins the queue in QUEUED (R91, R92). -/
theorem PageQueueLegal.concat {s : State} (h : PageQueueLegal s) {p : Page} (hs : s.pages.length < Config.pageSlots)
    (hid : s.page? p.id = none)
    (hf : p.id ≠ 0 ∧ 1 ≤ p.maxAttempts ∧ p.maxAttempts ≤ Config.attemptsMax ∧ p.attempt = 0) (hb : p.bands = [])
    (ht : ∃ raw, p.title = nameOf (cleanName Config.titleLength raw).1) (hq : p.state = .queued) :
    PageQueueLegal { s with pages := s.pages ++ [p] } where
  distinct := nodup_map_concat h.distinct hid
  balance := by
    have hheld : p.held = 0 := by rw [Page.held, hb]; rfl
    have := h.balance
    simp only [BuffersBalance, List.map_append, List.map_singleton, List.sum_append, List.sum_singleton, hheld] at this ⊢
    exact this
  legal :=
    { slots := by rw [List.length_append]; exact hs
      fields := fun q hm => by
        rcases List.mem_append.1 hm with hm | hm
        · exact h.legal.fields q hm
        · obtain rfl := List.mem_singleton.1 hm
          obtain ⟨hid, hlow, hhigh, hattempt⟩ := hf
          exact ⟨hid, hlow, hhigh, hattempt ▸ Nat.zero_le _⟩
      titles := fun q hm title htitle => by
        rcases List.mem_append.1 hm with hm | hm
        · exact h.legal.titles q hm title htitle
        · obtain rfl := List.mem_singleton.1 hm
          obtain ⟨raw, hraw⟩ := ht
          exact nameOf_clean (hraw ▸ htitle)
      gathering := by
        rw [List.countP_append, List.countP_singleton, if_neg (by rw [hq]; decide)]
        exact h.legal.gathering }

/-- A page record of the queue changes, and buffers pass between its band records and the free list. -/
theorem PageQueueLegal.replace {s t : State} (h : PageQueueLegal s) {p p' : Page} (hp : s.page? p.id = some p)
    (hid : p'.id = p.id) (hmax : p'.maxAttempts = p.maxAttempts) (htitle : p'.title = p.title)
    (hattempt : p'.attempt ≤ p.maxAttempts) (hg : p'.state = .gathering → p.state = .gathering ∨ s.gatheringPage = none)
    (hb : t.freeBuffers.length + p'.held = s.freeBuffers.length + p.held)
    (ht : t.pages = replaceFirst (·.id = p.id) p' s.pages) : PageQueueLegal t := by
  have hmem := page?_mem hp
  have hids : t.pages.map (·.id) = s.pages.map (·.id) := by rw [ht]; exact map_replaceFirst _ _ hp hid
  refine ⟨?_, ?_, ?_, fun q hq => ?_, fun q hq title => ?_, ?_⟩
  · rw [PageIdsDistinct, hids]
    exact h.distinct
  · have hsum := sum_map_replaceFirst Page.held p' hp
    have hs := h.balance
    rw [BuffersBalance] at hs ⊢
    rw [ht]
    omega
  · rw [← List.length_map (f := (·.id)), hids, List.length_map]
    exact h.legal.slots
  · rw [ht] at hq
    rcases mem_replaceFirst hq with rfl | hq
    · rw [hid, hmax]
      obtain ⟨hne, hlow, hhigh, -⟩ := h.legal.fields p hmem
      exact ⟨hne, hlow, hhigh, hattempt⟩
    · exact h.legal.fields q hq
  · rw [ht] at hq
    rcases mem_replaceFirst hq with rfl | hq
    · rw [htitle]
      exact h.legal.titles p hmem title
    · exact h.legal.titles q hq title
  · have hcount := countP_replaceFirst (fun q : Page => decide (q.state = .gathering)) p' hp
    have hs := h.legal.gathering
    rw [ht]
    by_cases hin : p'.state = .gathering
    · rcases hg hin with hstood | hnone
      · simp only [hin, hstood] at hcount
        omega
      · rw [gatheringPage_eq_none_iff] at hnone
        rw [hnone] at hcount
        have := Bool.toNat_le (decide (p'.state = .gathering))
        omega
    · rw [decide_eq_false hin, Bool.toNat_false] at hcount
      omega

/-- A page record changes as the moves of the page queue allow. -/
theorem PageQueueLegal.step {s : State} (h : PageQueueLegal s) {p p' : Page} (hp : p ∈ s.pages) (hstep : PageStep s p p') :
    PageQueueLegal { s with pages := replaceFirst (·.id = p'.id) p' s.pages } := by
  obtain ⟨-, hlow, -, hattempt⟩ := h.legal.fields p hp
  refine h.replace (h.page?_of_mem hp) hstep.id hstep.maxAttempts hstep.title ?_ hstep.gathering ?_ (by rw [hstep.id])
  · rcases hstep.attempt with hsame | hwithin | ⟨-, hfirst⟩
    · exact hsame ▸ hattempt
    · exact hwithin
    · exact hfirst ▸ hlow
  · rw [hstep.held]

/-- The band records of a page change with the free list. -/
theorem PageQueueLegal.rebands {s t : State} (h : PageQueueLegal s) {p : Page} {bands : List BandRecord}
    (hp : s.page? p.id = some p) (hb : t.freeBuffers.length + (bands.map (·.buffers.length)).sum = s.freeBuffers.length + p.held)
    (ht : t.pages = replaceFirst (·.id = p.id) { p with bands := bands } s.pages) : PageQueueLegal t := by
  obtain ⟨-, -, -, hattempt⟩ := h.legal.fields p (page?_mem hp)
  exact h.replace (p' := { p with bands := bands }) hp rfl rfl rfl hattempt .inl hb ht

/-- A page record leaves the queue, and its buffers are free (R107). -/
theorem PageQueueLegal.remove {s t : State} (h : PageQueueLegal s) {p : Page} (hp : s.page? p.id = some p)
    (hb : t.freeBuffers.length = s.freeBuffers.length + p.held) (ht : t.pages = removeFirst (·.id = p.id) s.pages) :
    PageQueueLegal t := by
  have hsub : t.pages.Sublist s.pages := ht ▸ removeFirst_sublist _ _
  refine ⟨h.distinct.sublist (hsub.map _), ?_, hsub.length_le.trans h.legal.slots, fun q hq => h.legal.fields q (hsub.subset hq),
    fun q hq => h.legal.titles q (hsub.subset hq), hsub.countP_le.trans h.legal.gathering⟩
  have hsum := removeFirst_sum (fun q : Page => decide (q.id = p.id)) Page.held hp
  have hs := h.balance
  rw [BuffersBalance] at hs ⊢
  rw [ht]
  omega

theorem Move.keeps_pages {lim : Nat} {s t : State} (m : Move lim s t) (h : PageQueueLegal s) : PageQueueLegal t := by
  cases m
  case newPage p hs hid hf hb ht hq => exact h.concat hs hid hf hb ht hq
  case page p p' hp hstep => exact h.step hp hstep
  case removePage p hp c free hb => exact h.remove hp hb rfl
  case beginBand p r need c hp hr bands hb =>
    refine h.rebands hp ?_ rfl
    have hheld : p.held = (p.bands.map (·.buffers.length)).sum := rfl
    have htake : r.buffers.length = min need s.freeBuffers.length := by rw [hr, List.length_take]
    rw [List.length_drop]
    omega
  case dropBand p bands free hp hb => exact h.rebands hp hb rfl
  case emptyTables => exact .empty rfl rfl
  case masterReset => exact .empty rfl rfl
  all_goals exact ⟨h.distinct, h.balance, h.legal.slots, h.legal.fields, h.legal.titles, h.legal.gathering⟩

/-- Settles O58: the moves of a step keep the page queue and its balance with the free buffers. -/
theorem stepKeepsPages : Obligations.StepKeepsPages := by
  intro s t hids hbuffers hlegal h
  obtain ⟨lim, hl⟩ := exists_frameWithin s.pending
  obtain ⟨hids, hbuffers, hlegal⟩ :=
    (step_moves s t hl h).keeps (fun _ _ m => m.keeps_pages) (PageQueueLegal.mk hids hbuffers hlegal)
  exact ⟨hids, hbuffers, hlegal⟩

end Sys2Proof.Machine
end

section
/-! PROOF. What a hold expiry and a gate expiry do (R96, R167, R168). -/

namespace Sys2Proof.Machine

theorem holdEnd_running {p : Page} {start : Nat} (ht : p.timer = .running start) (hh : p.hold ≠ Config.holdForever) :
    p.holdEnd = some (start + p.hold * Config.unitsPerMs) := by
  rw [Page.holdEnd, ht]
  exact if_neg hh

/-- A hold timer that does not run, or that never expires, has no end (R96). -/
theorem holdEnd_none {p : Page} (h : p.hold = Config.holdForever ∨ p.timer = .notStarted ∨ p.timer = .expired) :
    p.holdEnd = none := by
  rw [Page.holdEnd]
  split
  · rename_i start ht
    rcases h with hh | hn | he
    · exact if_pos hh
    · rw [ht] at hn; cases hn
    · rw [ht] at he; cases he
  · rfl

theorem holdEnds_none {s : State} (h : s.gatheringPage.bind Page.holdEnd = none) : holdEnds s = s := by
  unfold holdEnds
  split
  · rfl
  · rename_i p hp
    rw [hp, Option.bind_some] at h
    rw [h]

theorem holdEnds_some {s : State} {p : Page} {t : Nat} (hp : s.gatheringPage = some p) (ht : p.holdEnd = some t) :
    holdEnds s = setPage { p with permit := true, timer := .expired } (advanceTo t s) := by
  simp only [holdEnds, hp, ht]

theorem exec_holdExpiry {s : State} (h : s.inReset = false) : exec .holdExpiry s = .next (follow (holdEnds s.cleared)) :=
  congrArg Host.Outcome.next (whenUp_up h _)

theorem exec_gateExpiry {s : State} (h : s.inReset = false) (cls : NoticeClass) :
    exec (.gateExpiry cls) s = .next (follow (gateExpires cls s.cleared)) :=
  congrArg Host.Outcome.next (whenUp_up h _)

/-- Settles O39: the timer's end, or its absence, decides what each expiry does. -/
theorem timersExpire : Obligations.TimersExpire := by
  refine ⟨fun s hup => ?_, fun cls s hup => ?_⟩
  · rw [exec_holdExpiry hup]
    refine ⟨fun hnone => ?_, fun p hp => ⟨fun start ht hh => ?_, fun hstill => ?_⟩⟩
    · rw [holdEnds_none (s := s.cleared) (show s.gatheringPage.bind _ = none by rw [hnone]; rfl)]
    · rw [holdEnds_some (s := s.cleared) hp (holdEnd_running ht hh)]
      rfl
    · rw [holdEnds_none (s := s.cleared) (show s.gatheringPage.bind _ = none by rw [hp]; exact holdEnd_none hstill)]
  · rw [exec_gateExpiry hup, gateExpires]
    refine ⟨fun hnone => ?_, fun t ht => ?_⟩
    · rw [show s.cleared.gates[classIndex cls].last = none from hnone]
    · rw [show s.cleared.gates[classIndex cls].last = some t from ht]
      rfl

end Sys2Proof.Machine
end

section
/-! PROOF. The release of a page does not see a record in a channel's buffer; PAGE CANCEL (R104, R107). -/

namespace Sys2Proof.Machine

/-! ## A record in a channel's buffer takes no part in a release (R107) -/

section

variable (ch : Chan) (b : List Byte) (s : State)

theorem notify_holding (code : NoticeCode) (tag subject : Nat) (detail : List Item) :
    notify code tag subject detail (s.holding ch b) = (notify code tag subject detail s).holding ch b := notify_modChan ..

theorem promote_holding (key : Nat) : promote key (s.holding ch b) = (promote key s).holding ch b := by
  have hentry : (s.holding ch b).entry? key = s.entry? key := rfl
  unfold promote
  rw [hentry]
  split
  · rfl
  · split
    · rfl
    · exact takeRole_modChan ..

theorem unpinVersion_holding (tag key number : Nat) :
    unpinVersion tag key number (s.holding ch b) = (unpinVersion tag key number s).holding ch b := by
  have hentry : (s.holding ch b).entry? key = s.entry? key := rfl
  have hset (e : Entry) : setEntry e (s.holding ch b) = (setEntry e s).holding ch b := rfl
  have hfree (runs : List Run) (u : State) : returnBlocks runs (u.holding ch b) = (returnBlocks runs u).holding ch b := rfl
  unfold unpinVersion
  rw [hentry]
  split
  · rfl
  · split
    · split
      · dsimp only
        rw [hset, hfree, notify_holding]
        exact promote_holding ..
      · rfl
    · split
      · dsimp only
        rw [hset]
        split
        · exact promote_holding ..
        · rfl
      · rfl

theorem unpinTemplate_holding (i : Fin 12) : unpinTemplate i (s.holding ch b) = (unpinTemplate i s).holding ch b := by
  have htemplates : (s.holding ch b).templates = s.templates := rfl
  unfold unpinTemplate
  rw [htemplates]
  split
  · rfl
  · split
    · rfl
    · split
      · have hfreed : wakeUp (setTemplate i none (s.holding ch b)) = (wakeUp (setTemplate i none s)).holding ch b := rfl
        rw [hfreed]
        exact notify_holding ..
      · rfl

theorem dropLivePage_holding (id : Nat) : dropLivePage id (s.holding ch b) = (dropLivePage id s).holding ch b := by
  have hjob : (s.holding ch b).job? id = s.job? id := rfl
  unfold dropLivePage
  rw [hjob]
  split
  · rfl
  · exact completeJob_holding ch b _ (setJob _ s)

theorem fillGathering_holding : fillGathering (s.holding ch b) = (fillGathering s).holding ch b := by
  have hpage : (s.holding ch b).gatheringPage = s.gatheringPage := rfl
  have hpages : (s.holding ch b).pages = s.pages := rfl
  unfold fillGathering
  rw [hpage, hpages]
  split
  · rfl
  · split
    · rfl
    · rfl

theorem unpinnedFor_holding (tag : Nat) (p : Page) : (s.holding ch b).unpinnedFor tag p = (s.unpinnedFor tag p).holding ch b := by
  have hfold (named : List (Nat × Nat)) (u : State) :
      named.foldl (fun s k => unpinVersion tag k.1 k.2 s) (u.holding ch b) =
        (named.foldl (fun s k => unpinVersion tag k.1 k.2 s) u).holding ch b := by
    induction named generalizing u with
    | nil => rfl
    | cons k rest ih => rw [List.foldl_cons, List.foldl_cons, unpinVersion_holding, ih]
  rw [State.unpinnedFor, hfold, unpinTemplate_holding]
  rfl

theorem dismissed_holding (p : Page) : (s.holding ch b).dismissed p = (s.dismissed p).holding ch b := by
  have hremove : removePage p (s.holding ch b) = (removePage p s).holding ch b := rfl
  have hwake (u : State) : wakeUp (u.holding ch b) = (wakeUp u).holding ch b := rfl
  rw [State.dismissed, hremove, dropLivePage_holding, hwake, fillGathering_holding]
  rfl

theorem releasePage_holding (tag id : Nat) {announce : Page → State → State}
    (h : ∀ p u, announce p (u.holding ch b) = (announce p u).holding ch b) :
    releasePage tag id announce (s.holding ch b) = (releasePage tag id announce s).holding ch b := by
  cases hp : s.page? id with
  | none =>
    have hp' : (s.holding ch b).page? id = none := hp
    rw [releasePage, hp', releasePage, hp]
  | some p =>
    rw [releasePage_eq tag announce hp, releasePage_eq (s := s.holding ch b) tag announce hp, h, unpinnedFor_holding,
      dismissed_holding]

end

/-- A release announces the page that it finds. -/
theorem releasePage_congr {s : State} {id : Nat} {p : Page} (tag : Nat) {f g : Page → State → State} (hp : s.page? id = some p)
    (h : f p s = g p s) : releasePage tag id f s = releasePage tag id g s := by
  rw [releasePage_eq tag f hp, releasePage_eq tag g hp, h]

/-! ## PAGE CANCEL (R104) -/

theorem atPress_iff (st : PageState) : st.atPress = true ↔ st = .offered ∨ st = .printing ∨ st = .inPath := by
  cases st <;> decide

/-- Settles O23: the verdict on the page, and the release as the record's whole effect. -/
theorem pageCancel : Obligations.PageCancel := by
  intro ch tag pageId s hq hw
  have hexec := exec_wireRecord (c := .pageCancel ch tag pageId) hq.up rfl
  have r := carriedRecord (c := .pageCancel ch tag pageId) hw rfl rfl rfl
  rw [hexec]
  generalize pageCancelRecord tag pageId = b at r ⊢
  have hq' := quiet_cleared hq
  have htag : recTag b = tag := r.reads.tag
  have hcode : recKindCode b = 49 := r.reads.kind
  have hid : field b 8 2 = pageId := r.reads.fields (8, 2, pageId) (by simp)
  have hsub : recSubject b = pageId := by
    have hl : 10 ≤ b.length := Nat.le_trans (by decide) (decoderCheck_ok r.checked).2.2
    simp only [recSubject, r.isKind, if_pos hl, hid]
  have hlook : (s.cleared.holding ch b).page? (field b 8 2) = s.page? pageId := by rw [hid]; rfl
  have refused : ∀ reason, judgePageCancel b (s.cleared.holding ch b) = .refused reason [] →
      deliver ch b s.cleared = (s.cleared.refusedOn ch tag pageId 49 reason []).rested := by
    intro reason h
    rw [owner_refused hq' r.whole r.checked rfl r.isKind h, htag, hcode, hsub]
  congr 1
  split
  · rename_i hnone
    refine refused _ ?_
    simp only [judgePageCancel, hlook, hnone]
  · rename_i p hp
    split
    · rename_i hpress
      refine refused _ ?_
      simp only [judgePageCancel, hlook, hp]
      exact if_pos ((atPress_iff _).2 hpress)
    · rename_i hpress
      have hj : judgePageCancel b (s.cleared.holding ch b) = .taken (releasePage tag pageId
          (fun p => notify .pageCancelled tag p.id [.two p.state.code]) (s.cleared.holding ch b)) := by
        unfold judgePageCancel
        dsimp only
        rw [hlook, hp, htag, hid]
        exact if_neg fun h => hpress ((atPress_iff _).1 h)
      rw [releasePage_holding _ _ _ _ _ fun _ _ => notify_holding ..] at hj
      have hlink := releasePage_sameLink tag pageId (fun p => notify .pageCancelled tag p.id [.two p.state.code]) s.cleared
        fun _ _ => notify_sameLink ..
      rw [owner_taken hq' r.whole r.checked rfl hj hlink.1 hlink.2, htag,
        releasePage_congr (s := s.cleared) tag hp (g := fun p => notify .pageCancelled tag pageId [.two p.state.code])
          (by rw [page?_id hp])]

end Sys2Proof.Machine
end

section
/-! PROOF. PAGE: what its owner reads, the judging order, and the taking (R91 to R95). -/

namespace Sys2Proof.Machine

/-! ## What the owner reads of a PAGE (11.3) -/

/-- A PAGE record, read by its owner. -/
structure ReadsPage (b : List Byte) (tag pageId hold jobId number attempts : Nat) (title : List Byte) (keys : List Nat) :
    Prop where
  tag : recTag b = tag
  pageId : field b 8 2 = pageId
  hold : field b 10 2 = hold
  jobId : field b 12 1 = jobId
  number : field b 13 1 = number
  attempts : field b 14 1 = attempts
  count : field b 16 1 = keys.length
  title : (b.drop 20).take (field b 15 1) = title
  length : b.length = 20 + field b 15 1 + 4 * keys.length
  keys : pageKeys b = keys

theorem pageRecord_length (tag pageId hold jobId number attempts : Nat) (title : List Byte) (keys : List Nat) :
    (pageRecord tag pageId hold jobId number attempts title keys).length = 20 + title.length + 4 * keys.length := by
  rw [pageRecord, recordBytes_length]
  simp
  omega

theorem pageRecord_reads {ch : Chan} {tag pageId hold jobId number attempts : Nat} {title : List Byte} {keys : List Nat}
    (hw : (Instr.page ch tag pageId hold jobId number attempts title keys).wf = true) :
    ReadsPage (pageRecord tag pageId hold jobId number attempts title keys) tag pageId hold jobId number attempts title keys := by
  obtain ⟨_, ⟨⟩, -, htag, hfields, hrest⟩ :=
    (page_readsBack ch tag pageId hold jobId number attempts title keys).reads hw _ _ rfl
  have hkeys := page_keys ch tag pageId hold jobId number attempts title keys hw
  have hlength := pageRecord_length tag pageId hold jobId number attempts title keys
  generalize pageRecord tag pageId hold jobId number attempts title keys = b at *
  have reads (o w v : Nat) (h : (o, w, v) ∈ _) : field b o w = v := hfields (o, w, v) h
  have htitle : field b 15 1 = title.length := reads 15 1 _ (by simp)
  exact {
    tag := htag
    pageId := reads 8 2 _ (by simp)
    hold := reads 10 2 _ (by simp)
    jobId := reads 12 1 _ (by simp)
    number := reads 13 1 _ (by simp)
    attempts := reads 14 1 _ (by simp)
    count := reads 16 1 _ (by simp)
    title := by rw [htitle, show b.drop 20 = _ from hrest, List.take_left]
    length := by rw [htitle, hlength]
    keys := hkeys }

/-! ## Taking a PAGE (R92, R93, R95) -/

/-- The page record that a PAGE makes for a job with a template buffer (R92, R93). -/
def queuedPage (tag pageId hold jobId attempts : Nat) (title : List Byte) (keys : List Nat) (i : Fin 12) (t : TemplateBuffer) :
    Page where
  id := pageId
  jobId := jobId
  tag := tag
  buffer := i
  maxAttempts := storedAttempts attempts
  hold := hold
  title := nameOf (cleanName Config.titleLength title).1
  cells := pageCells t.cellSet keys
  state := .queued
  permit := false
  timer := .notStarted
  cast := none
  attempt := 0
  spoiled := false
  firstCount := 0
  bands := []
  sendLog := []

/-- The page stands at the young end, its buffer has one pin more and its job one live page (R92). -/
def State.withPage (p : Page) (t : TemplateBuffer) (j : Job) (s : State) : State :=
  { s with
    pages := s.pages ++ [p]
    templates := s.templates.set p.buffer (some { t with pins := t.pins + 1 })
    jobs := replaceFirst (fun k => k.id = j.id) { j with livePages := j.livePages + 1 } s.jobs }

/-- The page is taken with PAGE-TAKEN, and the next page enters GATHERING where none is in it (R92, R95). -/
def State.pageTaken (p : Page) (t : TemplateBuffer) (j : Job) (ignored : Nat) (defaulted altered : Bool) (s : State) : State :=
  fillGathering (notify .pageTaken p.tag p.id
    [.two s.pages.length, .two p.buffer, .two p.maxAttempts, .two ignored, flagItem [defaulted, altered, decide (0 < ignored)]]
    (s.withPage p t j))

section

variable {b : List Byte} {tag pageId hold jobId number attempts : Nat} {title : List Byte} {keys : List Nat}
  (reads : ReadsPage b tag pageId hold jobId number attempts title keys)

include reads

theorem ReadsPage.taken (j : Job) {i : Fin 12} {t : TemplateBuffer} {s : State} (ht : s.templates[i] = some t) :
    takePage b j i t s =
      s.pageTaken (queuedPage tag pageId hold j.id attempts title keys i t) t j (ignoredCells t.cellSet keys)
        (decide (storedAttempts attempts ≠ attempts)) (cleanName Config.titleLength title).2 := by
  have hpin (u : State) (hu : u.templates = s.templates) :
      pinTemplate i u = setTemplate i (some { t with pins := t.pins + 1 }) u := by
    rw [pinTemplate, hu, ht]
  unfold takePage
  dsimp only
  rw [reads.tag, reads.pageId, reads.hold, reads.attempts, reads.title, reads.keys, hpin]
  · rfl
  · rfl

/-- The judging order on what the record carries (R91): its length, the last condition of step 1, no well-formed command
fails. -/
theorem ReadsPage.judged (ch : Chan) {s : State} (hw : s.waiting = []) : judgePage ch b s =
    if pageId = 0 ∨ 7 < number ∨ 80 < keys.length then .refused .badField []
    else if (s.page? pageId).isSome then .refused .duplicatePage []
    else
      match s.job? jobId with
      | none => .refused .noJob []
      | some j =>
        if j.state ≠ .opened then .refused .jobClosing []
        else
          match s.mappedBuffer number with
          | none => .refused .noTemplate []
          | some i =>
            match firstOutside j keys, firstRepeatedKey keys, s.templates[i] with
            | some position, _, _ => .refused .outOfWindow [.two position]
            | none, some position, _ => .refused .duplicateKey [.two position]
            | none, none, none => .refused .noTemplate []
            | none, none, some t =>
              if 16 ≤ s.pages.length then .deferred .pageSlot else .taken (takePage b j i t s) := by
  have hbad : (decide (pageId = 0) || decide (7 < number) || decide (80 < keys.length) ||
      decide (b.length ≠ 20 + field b 15 1 + 4 * keys.length)) = decide (pageId = 0 ∨ 7 < number ∨ 80 < keys.length) := by
    rw [decide_eq_false (not_not_intro reads.length), Bool.or_false, Bool.decide_or, Bool.decide_or, Bool.or_assoc]
  unfold judgePage
  dsimp only
  simp only [reads.pageId, reads.jobId, reads.number, reads.count, reads.keys, hbad, olderWaiter_none hw, Bool.or_false,
    decide_eq_true_eq] <;> rfl

end

theorem withPage_holding (p : Page) (t : TemplateBuffer) (j : Job) (ch : Chan) (b : List Byte) (s : State) :
    (s.holding ch b).withPage p t j = (s.withPage p t j).holding ch b := rfl

theorem pageTaken_holding (p : Page) (t : TemplateBuffer) (j : Job) (ignored : Nat) (defaulted altered : Bool) (ch : Chan)
    (b : List Byte) (s : State) :
    (s.holding ch b).pageTaken p t j ignored defaulted altered =
      (s.pageTaken p t j ignored defaulted altered).holding ch b := by
  rw [State.pageTaken, withPage_holding, notify_holding]
  exact fillGathering_holding ..

theorem pageTaken_sameLink (p : Page) (t : TemplateBuffer) (j : Job) (ignored : Nat) (defaulted altered : Bool) (s : State) :
    SameLink s (s.pageTaken p t j ignored defaulted altered) := by
  have h : SameLink s (s.withPage p t j) := ⟨rfl, rfl⟩
  exact (h.trans (notify_sameLink ..)).trans (fillGathering_sameLink _)

/-- A PAGE that its owner takes on a quiet channel is taken, and no more comes about. -/
theorem ReadsPage.delivered {ch : Chan} {s : State} {b : List Byte} {tag pageId hold jobId number attempts : Nat}
    {title : List Byte} {keys : List Nat} {j : Job} {i : Fin 12} {t : TemplateBuffer} {form : RecordForm}
    (reads : ReadsPage b tag pageId hold jobId number attempts title keys) (hq : Quiet ch s) (r : CarriedRecord b .page form)
    (ht : s.templates[i] = some t)
    (hj : judgePage ch b (s.holding ch b) = .taken (takePage b j i t (s.holding ch b))) :
    deliver ch b s =
      ((s.pageTaken (queuedPage tag pageId hold j.id attempts title keys i t) t j (ignoredCells t.cellSet keys)
        (decide (storedAttempts attempts ≠ attempts)) (cleanName Config.titleLength title).2).counted ch).settled tag := by
  rw [reads.taken j (s := s.holding ch b) ht, pageTaken_holding] at hj
  obtain ⟨hchans, hwaiting⟩ := pageTaken_sameLink (queuedPage tag pageId hold j.id attempts title keys i t) t j
    (ignoredCells t.cellSet keys) (decide (storedAttempts attempts ≠ attempts)) (cleanName Config.titleLength title).2 s
  rw [owner_taken hq r.whole r.checked rfl hj hchans hwaiting, reads.tag]

/-! ## PAGE (R91) -/

theorem storedAttempts_eq (n : Nat) : storedAttempts n = if n = 0 ∨ 3 < n then 3 else n := by
  simp only [storedAttempts, Config.attemptsMax, Bool.or_eq_true, decide_eq_true_eq]

theorem cleanName_eq (limit : Nat) (name : List Byte) :
    (cleanName limit name).1 = (name.take limit).map fun c => if 32 ≤ c.toNat ∧ c.toNat ≤ 126 then c else 32 := by
  simp only [cleanName, Bool.and_eq_true, decide_eq_true_eq]

theorem cleanName_altered (limit : Nat) (name : List Byte) :
    (cleanName limit name).2 = decide ((cleanName limit name).1 ≠ name) := rfl

theorem nameOf_eq (clean : List Byte) : nameOf clean = if clean = [] then none else some clean := by
  simp only [nameOf, List.isEmpty_iff]

/-- Settles O22: the verdict step by step, and the taking on what the record carries. -/
theorem page : Obligations.Page := by
  intro ch tag pageId hold jobId number attempts title keys s hq hw refused
  have hexec : exec (.page ch tag pageId hold jobId number attempts title keys) s =
      .next (deliver ch (pageRecord tag pageId hold jobId number attempts title keys) s.cleared) := exec_wireRecord hq.up rfl
  have r : CarriedRecord _ .page _ := carriedRecord (c := .page ch tag pageId hold jobId number attempts title keys) hw rfl rfl rfl
  have reads := pageRecord_reads hw
  rw [hexec]
  generalize pageRecord tag pageId hold jobId number attempts title keys = b at r reads ⊢
  have hq' := quiet_cleared hq
  have hsub : recSubject b = pageId := by
    have hl : 10 ≤ b.length := Nat.le_trans (by decide) (decoderCheck_ok r.checked).2.2
    simp only [recSubject, r.isKind, if_pos hl, reads.pageId]
  have refuses {reason : Reason} {extra : List Item}
      (h : judgePage ch b (s.cleared.holding ch b) = .refused reason extra) : deliver ch b s.cleared = refused reason extra := by
    rw [owner_refused hq' r.whole r.checked rfl r.isKind h, reads.tag, r.reads.kind, hsub]
  have hj := reads.judged ch (s := s.cleared.holding ch b) hq.noWaiters
  clear_value refused
  congr 1
  split
  case isTrue hbad => exact refuses (hj.trans (if_pos hbad))
  case isFalse hbad =>
    replace hj := hj.trans (if_neg hbad)
    split
    case isTrue hheld => exact refuses (hj.trans (if_pos hheld))
    case isFalse hheld =>
      replace hj := hj.trans (if_neg hheld)
      split
      case h_1 hjob =>
        have look : (s.cleared.holding ch b).job? jobId = none := hjob
        rw [look] at hj
        exact refuses hj
      case h_2 j hjob =>
        obtain rfl : j.id = jobId := job?_id hjob
        have look : (s.cleared.holding ch b).job? j.id = some j := hjob
        rw [look] at hj
        dsimp only at hj
        split
        case isTrue hclosing => exact refuses (hj.trans (if_pos hclosing))
        case isFalse hclosing =>
          replace hj := hj.trans (if_neg hclosing)
          split
          case h_1 hbuffer =>
            have look : (s.cleared.holding ch b).mappedBuffer number = none := hbuffer
            rw [look] at hj
            exact refuses hj
          case h_2 i hbuffer =>
            have look : (s.cleared.holding ch b).mappedBuffer number = some i := hbuffer
            have stand : (s.cleared.holding ch b).templates = s.templates := rfl
            rw [look] at hj
            dsimp only at hj
            rw [stand] at hj
            split
            case h_1 hout =>
              rw [hout] at hj
              exact refuses hj
            case h_2 hin hrepeated =>
              rw [hin, hrepeated] at hj
              exact refuses hj
            case h_3 hin hdistinct hfree =>
              rw [hin, hdistinct, hfree] at hj
              exact refuses hj
            case h_4 t hin hdistinct hloaded =>
              rw [hin, hdistinct, hloaded] at hj
              split
              case isTrue hfull => exact owner_deferred hq' r.whole r.checked rfl (hj.trans (if_pos hfull))
              case isFalse hfull =>
                replace hj := hj.trans (if_neg hfull)
                rw [reads.delivered hq' r hloaded hj]
                simp only [queuedPage, cleanName_eq, cleanName_altered, nameOf_eq, storedAttempts_eq]
                rfl

end Sys2Proof.Machine
end

section
/-! PROOF. RESTART, and what the return of one page does (R106, R141, R156, R159, R160). -/

namespace Sys2Proof.Machine

/-! ## A returned page leaves the port (R156, R159) -/

/-- A band message of the page is leaving the port. -/
def State.sends (id : Nat) (s : State) : Bool := (s.sending.filter fun x => decide (x.page = id)).isSome

/-- The page is in the offer slot. -/
def State.offers (id : Nat) (s : State) : Bool := (s.offer.filter fun o => decide (o.page = id)).isSome

/-- The state in which a page has left the port: its band message is stopped, and it is neither in the path list nor in the offer
slot. -/
def State.leftPort (id : Nat) (s : State) : State :=
  { s with
    sending := if s.sends id then none else s.sending
    out := if s.sends id then s.out ++ [.bandAborted] else s.out
    path := s.path.filter (· ≠ id)
    offer := if s.offers id then none else s.offer
    cursor := if s.offers id then none else s.cursor }

theorem sends_iff {id : Nat} {s : State} : s.sends id = true ↔ ∃ x, s.sending = some x ∧ x.page = id := by
  rw [State.sends, Option.isSome_filter, Option.any_eq_true]
  simp only [decide_eq_true_eq]

theorem offers_iff {id : Nat} {s : State} : s.offers id = true ↔ ∃ o, s.offer = some o ∧ o.page = id := by
  rw [State.offers, Option.isSome_filter, Option.any_eq_true]
  simp only [decide_eq_true_eq]

theorem stopSending_one (id : Nat) (s : State) : stopSending [id] s =
    { s with sending := if s.sends id then none else s.sending
             out := if s.sends id then s.out ++ [.bandAborted] else s.out } := by
  unfold stopSending
  by_cases h : s.sends id = true
  · obtain ⟨x, hx, hp⟩ := sends_iff.1 h
    simp [h, hx, hp, emit]
  · simp only [if_neg h]
    split
    · rename_i x hx
      exact if_neg fun hp => h (sends_iff.2 ⟨x, hx, by simpa using hp⟩)
    · rfl

theorem leaveSlot_eq (id : Nat) (s : State) : leaveSlot id s =
    { s with offer := if s.offers id then none else s.offer, cursor := if s.offers id then none else s.cursor } := by
  unfold leaveSlot
  by_cases h : s.offers id = true
  · obtain ⟨o, ho, hp⟩ := offers_iff.1 h
    simp [h, ho, hp]
  · simp only [if_neg h]
    split
    · rename_i o ho
      exact if_neg fun hp => h (offers_iff.2 ⟨o, ho, hp⟩)
    · rfl

theorem leaveSlot_stopSending (id : Nat) (s : State) :
    leaveSlot id { stopSending [id] s with path := (stopSending [id] s).path.filter (· ≠ id) } = s.leftPort id := by
  rw [stopSending_one, leaveSlot_eq]
  rfl

theorem leftPort_sending (id : Nat) (s : State) : (s.leftPort id).sending = s.sending.filter fun x => decide (x.page ≠ id) := by
  show (if s.sends id then none else s.sending) = _
  by_cases h : s.sends id = true
  · obtain ⟨x, hx, hp⟩ := sends_iff.1 h
    rw [if_pos h, hx, Option.filter_some_neg (by simp [hp])]
  · rw [if_neg h]
    cases hx : s.sending with
    | none => rfl
    | some x =>
      have hother : x.page ≠ id := fun hp => h (sends_iff.2 ⟨x, hx, hp⟩)
      rw [Option.filter_some_pos (by simpa using hother)]

theorem leftPort_path (id : Nat) (s : State) : id ∉ (s.leftPort id).path := by simp [State.leftPort]

theorem leftPort_offer {id : Nat} {s : State} {slot : OfferSlot} (h : (s.leftPort id).offer = some slot) : slot.page ≠ id := by
  change (if s.offers id then none else s.offer) = some slot at h
  split at h
  · cases h
  · rename_i hout
    exact fun hp => hout (offers_iff.2 ⟨slot, h, hp⟩)

/-! ## The return of one page (R106, R141, R159) -/

/-- A page that may be printed again: REPLAY with the next attempt, its SENT records COMPOSED and its send log gone (R106,
R141). -/
def Page.returned (p : Page) : Page :=
  { p with state := .replay, attempt := p.attempt + 1, sendLog := [], spoiled := false, bands := replayRecords p.bands }

theorem replayRecords_eq (bands : List BandRecord) : replayRecords bands =
    bands.map fun r => if r.state = .sent ∨ r.state = .sentNot then { r with state := .composed } else r := by
  refine List.map_congr_left fun r _ => ?_
  cases h : r.state <;> simp

section

variable {id : Nat} {p : Page} {s : State} (hp : s.page? id = some p)

include hp

theorem stopSending_page? : (stopSending [id] s).page? id = some p := by
  rw [stopSending_one]
  exact hp

theorem returnPages_fails (h : p.maxAttempts < p.attempt + 1) : returnPages [id] s =
    (releasePage 0 id (fun p => notify .pageFailed p.tag p.id [.two p.attempt, flagItem [p.short], .two p.state.code])
      (s.leftPort id), 0, 1) := by
  rw [← leaveSlot_stopSending]
  simp only [returnPages, List.foldl_cons, List.foldl_nil, returnPage, stopSending_page? hp]
  exact if_neg (Nat.not_le.2 h)

theorem returnPages_replays (h : p.attempt + 1 ≤ p.maxAttempts) :
    returnPages [id] s = (setPage p.returned (s.leftPort id), 1, 0) := by
  rw [← leaveSlot_stopSending]
  simp only [returnPages, List.foldl_cons, List.foldl_nil, returnPage, stopSending_page? hp]
  exact if_pos h

theorem returned_page? : (setPage p.returned (s.leftPort id)).page? id = some p.returned := by
  obtain rfl := page?_id hp
  exact setPage_page? (p := p.returned) (s := s.leftPort p.id) hp

end

theorem exec_restart {s : State} (h : s.inReset = false) : exec .restart s = .next (follow (pressRestart s.cleared)) :=
  congrArg Host.Outcome.next (whenUp_up h _)

/-- Settles O34: RESTART as the return of the pages at the press, and the return of one page. -/
theorem restart : Obligations.Restart := by
  refine ⟨fun s hup => exec_restart hup, fun id p s hp hlast => returnPages_fails hp hlast, fun id p s hp hagain => ?_⟩
  rw [returnPages_replays hp hagain]
  refine ⟨rfl, leftPort_sending id s, rfl, ?_, leftPort_path id s, fun _ => leftPort_offer, rfl, rfl⟩
  rw [returned_page? hp, Page.returned, replayRecords_eq]

end Sys2Proof.Machine
end

section
/-! PROOF. What the cast list captures of a cell, and the scaler's parameters (R100, R124, R125). -/

namespace Sys2Proof.Machine

/-! ## A cell of the cast list (R100) -/

theorem cell?_eq_some_iff {k : Slot} {cell : Nat} : k.cell? = some cell ↔ k.kind = .portrait cell := by
  unfold Slot.cell?
  cases k.kind <;> simp

theorem cellSlot_eq (t : TemplateBuffer) (cell : Nat) :
    t.cellSlot cell = t.bandIndex.find? fun k => decide (k.kind = .portrait cell) := by
  unfold TemplateBuffer.cellSlot
  simp only [cell?_eq_some_iff]

theorem captureCell_empty (s : State) (t : TemplateBuffer) (cell : Nat) :
    captureCell s t cell 0 = { cell := cell, key := 0, content := .empty, text := none } := rfl

theorem captureCell_missing {s : State} {key : Nat} (t : TemplateBuffer) (cell : Nat) (hk : key ≠ 0) (he : s.entry? key = none) :
    captureCell s t cell key = { cell := cell, key := key, content := .missing, text := none } := by
  rw [captureCell, if_neg hk, he]

/-- What a cell shows of the entry of its key (R100). -/
def Entry.content (e : Entry) (t : TemplateBuffer) (cell : Nat) : CellContent :=
  if e.withholdPhoto then .withheld
  else
    match e.current, t.cellSlot cell with
    | some v, some k => .portrait v.number (scalerFor v.width v.height k.rect.w k.rect.h)
    | _, _ => .missing

theorem captureCell_entry {s : State} {key : Nat} {e : Entry} (t : TemplateBuffer) (cell : Nat) (hk : key ≠ 0)
    (he : s.entry? key = some e) :
    captureCell s t cell key =
      { cell := cell, key := key, content := e.content t cell, text := if e.withholdName then none else e.name } := by
  rw [captureCell, if_neg hk, he]
  rfl

theorem shownName_eq (e : Entry) :
    ((some e).filter fun e => !e.withholdName).bind (·.name) = if e.withholdName then none else e.name := by
  rw [Option.filter_some]
  cases e.withholdName <;> rfl

/-! ## The scaler (R124, R125) -/

/-- No step is less than half a pixel: no more than a doubling is made. -/
theorem scaler_step_min (sw sh cw ch : Nat) : 32768 ≤ (scalerFor sw sh cw ch).step := Nat.le_max_right _ _

/-- A step within the source displays at least one sample. -/
theorem one_le_displayed {source step cell : Nat} (hc : 1 ≤ cell) (h0 : 0 < step) (hs : step ≤ subpixels source) :
    1 ≤ min cell (subpixels source / step) :=
  Nat.le_min.2 ⟨hc, (Nat.one_le_div_iff h0).2 hs⟩

theorem step_mul_displayed_le (source step cell : Nat) : step * min cell (subpixels source / step) ≤ subpixels source :=
  (Nat.mul_le_mul_left step (Nat.min_le_right _ _)).trans (Nat.mul_div_le _ _)

/-- Samples that start at half of what the displayed length leaves of the source stay inside it. -/
theorem sample_inside {source step d i : Nat} (h0 : 0 < step) (hd : step * d ≤ subpixels source) (hi : i < d) :
    ((subpixels source - step * d) / 2 + i * step) / 65536 < source := by
  have hlast : i * step + step ≤ step * d := by
    calc i * step + step = step * (i + 1) := by ring
      _ ≤ step * d := Nat.mul_le_mul_left step hi
  rw [subpixels] at hd ⊢
  omega

theorem margin_inside {d cell : Nat} (h : d ≤ cell) : (cell - d) / 2 + d ≤ cell := by omega

/-- The least step that shows a source whole is less than half a pixel just where a doubling does not fill the cell. -/
theorem fit_lt_iff {source cell : Nat} (hc : 1 ≤ cell) : subpixels source / cell < 32768 ↔ 2 * source < cell := by
  rw [Nat.div_lt_iff_lt_mul hc, subpixels]
  omega

section

variable {sw sh cw ch : Nat} (hsw : 16 ≤ sw) (hsh : 16 ≤ sh) (hcw : 1 ≤ cw) (hch : 1 ≤ ch)

include hsw hsh in
theorem scaler_step_le : (scalerFor sw sh cw ch).step ≤ subpixels sw ∧ (scalerFor sw sh cw ch).step ≤ subpixels sh := by
  have hmin : ∀ n, 16 ≤ n → 32768 ≤ subpixels n := fun n hn => by rw [subpixels]; omega
  exact ⟨Nat.max_le.2 ⟨(Nat.min_le_left _ _).trans (Nat.div_le_self _ _), hmin sw hsw⟩,
    Nat.max_le.2 ⟨(Nat.min_le_right _ _).trans (Nat.div_le_self _ _), hmin sh hsh⟩⟩

include hcw hch in
theorem scaler_undersized_iff : (scalerFor sw sh cw ch).undersized = true ↔ 2 * sw < cw ∨ 2 * sh < ch := by
  rw [← fit_lt_iff hcw, ← fit_lt_iff hch]
  exact decide_eq_true_iff.trans min_lt_iff

end

theorem scaler_column_mono (p : Scaler) (i : Nat) : p.column i ≤ p.column (i + 1) :=
  Nat.div_le_div_right (Nat.add_le_add_left (Nat.mul_le_mul_right p.step (Nat.le_succ i)) p.ox)

/-- Settles O43: the cell's key and entry decide what is captured; each axis of the scaler stays inside by itself. -/
theorem scalerInside : Obligations.ScalerInside := by
  refine ⟨fun s t cell key => ?_, fun sw sh cw ch hsw hsh hcw hch => ?_⟩
  · rw [← cellSlot_eq]
    by_cases hk : key = 0
    · subst hk
      rfl
    · simp only [if_neg hk]
      cases he : s.entry? key with
      | none => exact captureCell_missing t cell hk he
      | some e =>
        rw [captureCell_entry t cell hk he, shownName_eq]
        rfl
  · intro p
    have hstep : 32768 ≤ p.step := scaler_step_min sw sh cw ch
    have h0 : 0 < p.step := Nat.lt_of_lt_of_le (by decide) hstep
    obtain ⟨hw, hh⟩ : p.step ≤ subpixels sw ∧ p.step ≤ subpixels sh := scaler_step_le hsw hsh
    exact ⟨hstep, one_le_displayed hcw h0 hw, one_le_displayed hch h0 hh, margin_inside (Nat.min_le_left _ _),
      margin_inside (Nat.min_le_left _ _), fun i => sample_inside h0 (step_mul_displayed_le sw p.step cw),
      fun j => sample_inside h0 (step_mul_displayed_le sh p.step ch), scaler_column_mono p, scaler_undersized_iff hcw hch⟩

end Sys2Proof.Machine
end

section
/-! PROOF. The layout of a caption: the most characters that fit, the font it is set in, its place; and the caption records of the
slots (R101, R126 to R130). -/

namespace Sys2Proof.Machine

/-! ## The most characters that fit (R128) -/

section

variable (f : Font) (m : FontMetrics) (text : List Byte) (w : Nat)

theorem longestFit_le (n : Nat) : longestFit f m text w n ≤ n := by
  induction n with
  | zero => exact Nat.le_refl 0
  | succ n ih =>
    unfold longestFit
    split
    · exact Nat.le_refl _
    · exact Nat.le_succ_of_le ih

theorem longestFit_fits {n : Nat} (h : 1 ≤ longestFit f m text w n) :
    textWidth f m (text.take (longestFit f m text w n)) ≤ w := by
  induction n with
  | zero => cases h
  | succ n ih =>
    unfold longestFit at h ⊢
    split
    · assumption
    · rename_i hwide
      rw [if_neg hwide] at h
      exact ih h

theorem longestFit_longest {n k : Nat} (h : longestFit f m text w n < k) (hk : k ≤ n) : w < textWidth f m (text.take k) := by
  induction n with
  | zero => exact absurd h (Nat.not_lt.2 hk)
  | succ n ih =>
    unfold longestFit at h
    split at h
    · exact absurd h (Nat.not_lt.2 hk)
    · rename_i hwide
      rcases Nat.lt_or_eq_of_le hk with hlt | rfl
      · exact ih h (Nat.le_of_lt_succ hlt)
      · exact Nat.lt_of_not_le hwide

end

/-! ## The choice of a font (R127, R128) -/

/-- The font is loaded with the metrics, and meets a test. -/
def Meets (fonts : Vector Font 2) (p : Font → FontMetrics → Bool) (g : Fin 2) (m : FontMetrics) : Prop :=
  fonts[g].metrics = some m ∧ p fonts[g] m = true

section

variable {fonts : Vector Font 2} {p : Font → FontMetrics → Bool}

/-- The first of the fonts is passed over where it does not meet the test. -/
theorem firstFont_cons_cases (j : Fin 2) (rest : List (Fin 2)) :
    (∃ m, Meets fonts p j m ∧ firstFont fonts p (j :: rest) = some (j, m)) ∨
    ((∀ m, ¬ Meets fonts p j m) ∧ firstFont fonts p (j :: rest) = firstFont fonts p rest) := by
  cases hm : fonts[j].metrics with
  | none =>
    refine .inr ⟨fun m h => ?_, by rw [firstFont, hm]⟩
    rw [Meets, hm] at h
    cases h.1
  | some m =>
    by_cases hp : p fonts[j] m = true
    · exact .inl ⟨m, ⟨hm, hp⟩, by rw [firstFont, hm]; exact if_pos hp⟩
    · refine .inr ⟨fun k h => ?_, by rw [firstFont, hm]; exact if_neg hp⟩
      obtain ⟨hk, hpk⟩ := h
      cases hm.symm.trans hk
      exact hp hpk

theorem firstFont_none {l : List (Fin 2)} (h : firstFont fonts p l = none) :
    ∀ g ∈ l, ∀ m, ¬ Meets fonts p g m := by
  induction l with
  | nil => exact nofun
  | cons j rest ih =>
    obtain ⟨m, -, hj⟩ | ⟨hj, hrest⟩ := firstFont_cons_cases (fonts := fonts) (p := p) j rest
    · cases hj.symm.trans h
    · exact List.forall_mem_cons.2 ⟨hj, ih (hrest.symm.trans h)⟩

theorem firstFont_some {l : List (Fin 2)} {i : Fin 2} {m : FontMetrics} (h : firstFont fonts p l = some (i, m)) :
    Meets fonts p i m := by
  induction l with
  | nil => cases h
  | cons j rest ih =>
    obtain ⟨k, hmeets, hj⟩ | ⟨-, hrest⟩ := firstFont_cons_cases (fonts := fonts) (p := p) j rest
    · cases hj.symm.trans h
      exact hmeets
    · exact ih (hrest.symm.trans h)

/-- The font chosen is the list's first, or that does not meet the test. -/
theorem firstFont_first {j i : Fin 2} {rest : List (Fin 2)} {m : FontMetrics}
    (h : firstFont fonts p (j :: rest) = some (i, m)) : i = j ∨ ∀ k, ¬ Meets fonts p j k := by
  obtain ⟨k, -, hj⟩ | ⟨hj, -⟩ := firstFont_cons_cases (fonts := fonts) (p := p) j rest
  · cases hj.symm.trans h
    exact .inl rfl
  · exact .inr hj

end

theorem mem_fontOrder (preferred g : Fin 2) : g ∈ fontOrder preferred := by
  revert preferred g
  decide

theorem fontOrder_first (preferred : Fin 2) : fontOrder preferred = [preferred, 1 - preferred] := by
  revert preferred
  decide

/-! ## The layout of a caption (R127 to R129) -/

/-- The font is loaded, and its height fits the slot (R127). -/
def FontHigh (fonts : Vector Font 2) (r : Rect) (f : Fin 2) (m : FontMetrics) : Prop := fonts[f].metrics = some m ∧ m.height ≤ r.h

/-- The font is loaded, and sets the whole text in the slot (R127). -/
def FontWhole (fonts : Vector Font 2) (r : Rect) (text : List Byte) (f : Fin 2) (m : FontMetrics) : Prop :=
  FontHigh fonts r f m ∧ textWidth fonts[f] m text ≤ r.w

/-- What can come of a text in a slot: WHOLE, OMITTED for its height or its width, or CLIPPED (R127, R128). -/
inductive CaptionCase (fonts : Vector Font 2) (r : Rect) (preferred : Fin 2) (a : Align) (text : List Byte) : CaptionLayout → Prop
  where
  | whole (f : Fin 2) (m : FontMetrics) (h : FontWhole fonts r text f m)
      (first : f = preferred ∨ ∀ m, ¬ FontWhole fonts r text preferred m) :
      CaptionCase fonts r preferred a text (placedText fonts r a text false f m text.length)
  | tooHigh (nowhere : ∀ g m, ¬ FontWhole fonts r text g m) (low : ∀ g m, ¬ FontHigh fonts r g m) :
      CaptionCase fonts r preferred a text .omitted
  | tooWide (f : Fin 2) (m : FontMetrics) (nowhere : ∀ g m, ¬ FontWhole fonts r text g m) (h : FontHigh fonts r f m)
      (first : f = preferred ∨ ∀ m, ¬ FontHigh fonts r preferred m)
      (empty : longestFit fonts[f] m text r.w text.length = 0) : CaptionCase fonts r preferred a text .omitted
  | clipped (f : Fin 2) (m : FontMetrics) (nowhere : ∀ g m, ¬ FontWhole fonts r text g m) (h : FontHigh fonts r f m)
      (first : f = preferred ∨ ∀ m, ¬ FontHigh fonts r preferred m)
      (nonempty : 1 ≤ longestFit fonts[f] m text r.w text.length) :
      CaptionCase fonts r preferred a text
        (placedText fonts r a text true f m (longestFit fonts[f] m text r.w text.length))

theorem captionLayout_cases (fonts : Vector Font 2) (r : Rect) (preferred : Fin 2) (a : Align) (text : List Byte) :
    CaptionCase fonts r preferred a text (captionLayout fonts r preferred a text) := by
  have hwhole : FontWhole fonts r text =
      Meets fonts fun f m => decide (m.height ≤ r.h) && decide (textWidth f m text ≤ r.w) := by
    funext g m
    rw [FontWhole, FontHigh, Meets, Bool.and_eq_true, decide_eq_true_iff, decide_eq_true_iff, and_assoc]
  have hhigh : FontHigh fonts r = Meets fonts fun _ m => decide (m.height ≤ r.h) := by
    funext g m
    rw [FontHigh, Meets, decide_eq_true_iff]
  unfold captionLayout
  dsimp only
  split
  · rename_i f m hf
    refine .whole f m (hwhole ▸ firstFont_some hf) ?_
    rw [hwhole]
    exact firstFont_first (fontOrder_first preferred ▸ hf)
  · rename_i hnone
    have nowhere : ∀ g m, ¬ FontWhole fonts r text g m := fun g =>
      hwhole ▸ firstFont_none hnone g (mem_fontOrder preferred g)
    split
    · rename_i hlow
      exact .tooHigh nowhere fun g => hhigh ▸ firstFont_none hlow g (mem_fontOrder preferred g)
    · rename_i f m hf
      have h : FontHigh fonts r f m := hhigh ▸ firstFont_some hf
      have first : f = preferred ∨ ∀ m, ¬ FontHigh fonts r preferred m :=
        hhigh ▸ firstFont_first (fontOrder_first preferred ▸ hf)
      split
      · rename_i hempty
        exact .tooWide f m nowhere h first hempty
      · rename_i hsome
        exact .clipped f m nowhere h first (Nat.pos_of_ne_zero hsome)

/-! ## Caption records (R101, R130) -/

theorem castText_eq (cells : List CastRecord) (cell : Nat) :
    castText cells cell = (cells.find? (·.cell = cell)).bind (·.text) := by
  unfold castText
  cases cells.find? (·.cell = cell) <;> rfl

/-- Settles O47: the most characters that fit, the cases of a layout, and the slots that have a caption record. -/
theorem longestPrefixFits : Obligations.LongestPrefixFits := by
  refine ⟨fun f m text w => ⟨longestFit_le .., longestFit_fits _ _ _ _, fun k => longestFit_longest _ _ _ _⟩,
    fun fonts r preferred a text => ?_, fun s cells title k => ?_⟩
  · intro high whole placed
    have h := captionLayout_cases fonts r preferred a text
    generalize captionLayout fonts r preferred a text = layout at h ⊢
    cases h
    case whole f m h first =>
      refine ⟨rfl, first, m, h, rfl, ?_, rfl, rfl⟩
      rw [List.take_length]
      exact h.2
    case tooHigh nowhere low => exact ⟨nowhere, .inl low⟩
    case tooWide f m nowhere h first empty =>
      exact ⟨nowhere, .inr ⟨f, m, h, first, fun k hk => longestFit_longest _ _ _ _ (by rw [empty]; exact hk)⟩⟩
    case clipped f m nowhere h first nonempty =>
      have hfits := longestFit_fits fonts[f] m text r.w nonempty
      have hshort : longestFit fonts[f] m text r.w text.length < text.length := by
        refine Nat.lt_of_le_of_ne (longestFit_le ..) fun hall => nowhere f m ⟨h, ?_⟩
        rwa [hall, List.take_length] at hfits
      exact ⟨nowhere, first, nonempty, hshort, m, h, ⟨rfl, hfits, rfl, rfl⟩, fun k => longestFit_longest _ _ _ _⟩
  · intro record
    unfold captureCaption
    simp only [castText_eq]
    rfl

end Sys2Proof.Machine
end

section
/-! PROOF. The order in which a band's slots are painted (R121), and the completion of a band's composition (R119). -/

namespace Sys2Proof.Machine

/-! ## The painting of a pixel (R121) -/

theorem sortBy_key_pairwise {α : Type} (key : α → Nat) (l : List α) :
    (sortBy (fun a b => decide (key a ≤ key b)) l).Pairwise fun a b => key a ≤ key b := by
  simp only [sortBy_eq_insertionSort, decide_eq_true_eq]
  exact List.pairwise_insertionSort (key ⁻¹'o (· ≤ ·)) l

section

variable (s : State) (t : TemplateBuffer) (cast : Cast) (col line : Nat)

/-- What stands at a pixel once a slot has been painted: the slot's paint in its rectangle, what was beneath outside it. -/
def paintOver (below : Rgb) (k : Slot) : Rgb := if k.rect.covers col line then paintSlot s t cast k col line below else below

theorem bandPixel_eq (b : Nat) : bandPixel s t cast b col line =
    (sortBy (fun x y => decide (x.index ≤ y.index)) (t.bandSlots b)).foldl (paintOver s t cast col line) t.background := rfl

variable {s t cast col line} {below colour : Rgb} {k : Slot} {slots : List Slot}

theorem paintOver_outside (h : k.rect.covers col line = false) : paintOver s t cast col line below k = below := by
  rw [paintOver, h]
  rfl

theorem paintOver_fill (h : k.rect.covers col line = true) (hfill : k.kind = .fill colour) :
    paintOver s t cast col line below k = colour := by
  rw [paintOver, if_pos h, paintSlot, hfill]

theorem foldl_paintOver_outside (h : ∀ k ∈ slots, k.rect.covers col line = false) :
    slots.foldl (paintOver s t cast col line) below = below := by
  induction slots with
  | nil => rfl
  | cons k rest ih =>
    obtain ⟨hk, hrest⟩ := List.forall_mem_cons.1 h
    rw [List.foldl_cons, paintOver_outside hk, ih hrest]

/-- In slot-index order, the covering FILL slot of the greatest index leaves its colour: no slot after it covers the pixel. -/
theorem foldl_paintOver_fill (hsort : slots.Pairwise fun x y => x.index ≤ y.index) (hk : k ∈ slots)
    (hcovers : k.rect.covers col line = true) (hfill : k.kind = .fill colour)
    (hlast : ∀ k' ∈ slots, k'.rect.covers col line = true → k' = k ∨ k'.index < k.index) :
    slots.foldl (paintOver s t cast col line) below = colour := by
  induction slots using List.reverseRecOn with
  | nil => cases hk
  | append_singleton slots last ih =>
    obtain ⟨hsort, -, hafter⟩ := List.pairwise_append.1 hsort
    rw [List.foldl_concat]
    have hmem : k ∈ slots ∨ k = last := by simpa using hk
    cases hout : last.rect.covers col line with
    | true =>
      have hsame : last = k := by
        rcases hlast last (by simp) hout with hsame | hlt
        · exact hsame
        · rcases hmem with hk | hk
          · exact absurd (hafter k hk last (by simp)) (Nat.not_le.2 hlt)
          · exact hk.symm
      rw [hsame, paintOver_fill hcovers hfill]
    | false =>
      have hk : k ∈ slots := hmem.resolve_right fun hk => by rw [← hk, hcovers] at hout; cases hout
      rw [paintOver_outside hout, ih hsort hk fun k' hk' => hlast k' (List.mem_append_left _ hk')]

end

/-- Settles O46: the slots of the band are painted in slot-index order. -/
theorem lastSlotPaints : Obligations.LastSlotPaints := by
  intro s t cast b col line
  have hmem (k : Slot) : k ∈ sortBy (fun x y => decide (x.index ≤ y.index)) (t.bandSlots b) ↔ k ∈ t.bandSlots b :=
    (sortBy_perm ..).mem_iff
  rw [bandPixel_eq]
  refine ⟨fun hnone => ?_, fun k colour hk hcovers hfill hlast => ?_⟩
  · exact foldl_paintOver_outside fun k hk => hnone k ((hmem k).1 hk)
  · exact foldl_paintOver_fill (sortBy_key_pairwise Slot.index _) ((hmem k).2 hk) hcovers hfill
      fun k' hk' => hlast k' ((hmem k').1 hk')

/-! ## The completion of a band's composition (R119) -/

theorem completedState_eq (p : Page) (b : Nat) : completedState p b =
    if p.mark b = .filler ∧ (p.state = .printing ∨ p.state = .inPath) then .sentNot else .composed := by
  simp [completedState]

/-- The page with band `b` completed: its record's new state, and the first-composition count one on where it stood at `b`. -/
def Page.completed (p : Page) (b : Nat) : Page :=
  { setBandState b (completedState p b) p with
    firstCount := if b = p.firstCount then p.firstCount + 1 else p.firstCount }

/-- A band's pixels do not depend on what the compositor is at, nor on what has gone out. -/
theorem writeBand_free (s : State) (p : Page) (r : BandRecord) :
    writeBand { s.cleared with compositor := .free } p r = writeBand s p r := rfl

theorem completeBand_found {item : WorkItem} {s : State} {p : Page} {r : BandRecord} (hp : s.page? item.page = some p)
    (hr : p.band? item.band = some r) : completeBand item s = setPage (p.completed item.band)
      { s with compositor := .free, store := writeBand { s with compositor := .free } p r } := by
  have hp : ({ s with compositor := .free } : State).page? item.page = some p := hp
  simp only [completeBand, hp, hr]
  rfl

theorem compositionComplete_busy {s : State} {item : WorkItem} {need : Nat} (h : s.compositor = .busy item need) :
    compositionComplete s = completeBand item s := by
  rw [compositionComplete, h]

theorem compositionComplete_idle {s : State} (h : ∀ item need, s.compositor ≠ .busy item need) :
    compositionComplete s = s := by
  unfold compositionComplete
  split
  · rename_i item need hbusy
    exact absurd hbusy (h item need)
  · rfl

theorem exec_bandCompositionComplete {s : State} (h : s.inReset = false) :
    exec .bandCompositionComplete s = .next (follow (compositionComplete s.cleared)) :=
  congrArg Host.Outcome.next (whenUp_up h _)

/-- Settles O35: the completion of the band that the compositor is at, or of none. -/
theorem bandComplete : Obligations.BandComplete := by
  intro s hup
  rw [exec_bandCompositionComplete hup]
  refine ⟨fun item need p r hbusy hp hr => ?_, fun hidle => ?_⟩
  · rw [compositionComplete_busy (s := s.cleared) hbusy, completeBand_found (s := s.cleared) hp hr, writeBand_free,
      Page.completed, completedState_eq]
    rfl
  · rw [compositionComplete_idle (s := s.cleared) hidle]

end Sys2Proof.Machine
end

section
/-! PROOF. The end of a band's sending: the retention of the band's record, and the page's passage to the path list (R139, R140,
R154, R155). -/

namespace Sys2Proof.Machine

/-! ## Retention (R140) -/

/-- The page once real band `b` with record `r` is sent: the record is SENT within the retention limit, and removed beyond it. -/
def Page.retained (p : Page) (b : Nat) (r : BandRecord) : Page :=
  { p with
    bands := if p.kept + r.buffers.length ≤ 64 then p.bands.map fun y => if y.index = b then { y with state := .sent } else y
             else removeFirst (fun y => y.index = b) p.bands }

/-- The state whose free list has the record's buffers where the page may not retain them. -/
def State.retained (s : State) (p : Page) (r : BandRecord) : State :=
  { s with
    freeBuffers := if p.kept + r.buffers.length ≤ 64 then s.freeBuffers else (freeBandBuffers r.buffers s).freeBuffers }

theorem State.retained_eq (s : State) (p : Page) (r : BandRecord) : s.retained p r =
    if p.kept + r.buffers.length ≤ 64 then s else freeBandBuffers r.buffers s := by
  unfold State.retained
  split <;> rfl

theorem dropBand_found {id b : Nat} {s : State} {p : Page} {r : BandRecord} (hp : s.page? id = some p)
    (hr : p.band? b = some r) : dropBand id b s =
      setPage { p with bands := removeFirst (fun y => y.index = b) p.bands } (freeBandBuffers r.buffers s) := by
  simp only [dropBand, hp, hr]

theorem retainBand_found {id b : Nat} {s : State} {p : Page} {r : BandRecord} (hp : s.page? id = some p)
    (hr : p.band? b = some r) : retainBand id b s = setPage (p.retained b r) (s.retained p r) := by
  simp only [retainBand, hp, hr]
  rw [State.retained_eq, Page.retained]
  split
  · rfl
  · exact dropBand_found hp hr

/-! ## The passage to the path list (R154) -/

/-- The state in which band message `x` has left the port, and a real band's record has met the retention limit. -/
def State.afterBand (s : State) (x : Sending) : State :=
  if x.real then retainBand x.page x.band (emit .bandEnd { s with sending := none })
  else emit .bandEnd { s with sending := none }

/-- The state in which page `p` has passed from the offer slot to the path list. -/
def State.passed (s : State) (p : Page) : State :=
  setPage { p with state := .inPath } { s with offer := none, cursor := none, path := s.path ++ [p.id] }

theorem bandCountOf_template {s : State} {p : Page} {t : TemplateBuffer} (h : s.templateOf p = some t) :
    s.bandCountOf p = t.bandCount := by
  rw [State.bandCountOf, h]

theorem passed_setPage {p q : Page} (h : q.id = p.id) (s : State) : (setPage q s).passed p = s.passed p := by
  simp only [State.passed, setPage, h]
  rw [replaceFirst_replaceFirst (by simpa using h)]

section

variable {s u : State} {x : Sending} {p : Page} {t : TemplateBuffer} (hu : s.afterBand x = u) (hp : u.page? x.page = some p)
  (ht : u.templateOf p = some t)

include hu hp ht

theorem endSending_more (hb : x.band + 1 ≠ t.bandCount) : endSending x s = u := by
  subst hu
  rw [← bandCountOf_template ht] at hb
  unfold State.afterBand at hp hb ⊢
  simp only [endSending, hp, if_neg hb]

theorem endSending_last (hb : x.band + 1 = t.bandCount) (ho : u.offer = some { page := x.page, printing := true }) :
    endSending x s = u.passed p := by
  subst hu
  rw [← bandCountOf_template ht] at hb
  unfold State.afterBand at hp hb ho ⊢
  simp only [endSending, hp, if_pos hb, ho, leaveSlot, if_true]
  rw [State.passed, page?_id hp]

end

/-! ## The band message of a real band, and of a filler (R139, R155) -/

section

variable {s : State} {x : Sending} {p : Page} {t : TemplateBuffer} {r : BandRecord}

theorem afterBand_filler (h : x.real = false) : s.afterBand x = emit .bandEnd { s with sending := none } := by
  rw [State.afterBand, h]
  rfl

theorem afterBand_real (h : x.real = true) (hp : s.page? x.page = some p) (hr : p.band? x.band = some r) :
    s.afterBand x = setPage (p.retained x.band r) ((emit .bandEnd { s with sending := none }).retained p r) := by
  rw [State.afterBand, if_pos h]
  exact retainBand_found hp hr

theorem retained_page? {id b : Nat} (hp : s.page? id = some p) :
    (setPage (p.retained b r) (s.retained p r)).page? id = some (p.retained b r) := by
  obtain rfl := page?_id hp
  exact setPage_page? (p := p.retained b r) (s := s.retained p r) hp

end

theorem sendingEnd_some {s : State} {x : Sending} (h : s.sending = some x) : sendingEnd s = endSending x s := by
  rw [sendingEnd, h]

theorem sendingEnd_none {s : State} (h : s.sending = none) : sendingEnd s = s := by
  rw [sendingEnd, h]

theorem exec_bandSendingEnd {s : State} (h : s.inReset = false) :
    exec .bandSendingEnd s = .next (follow (sendingEnd s.cleared)) :=
  congrArg Host.Outcome.next (whenUp_up h _)

/-- Settles O36: the end of no sending, of a real band's, and of a filler's. -/
theorem Settled.sendingEnd : Obligations.SendingEnd := by
  intro s hup
  rw [exec_bandSendingEnd hup]
  refine ⟨fun hnone => ?_, fun x p t r hx hreal hp ht hr => ?_, fun x p t hx hfiller hp ht => ?_⟩
  · rw [sendingEnd_none (s := s.cleared) hnone]
  · dsimp only
    rw [sendingEnd_some (s := s.cleared) hx, ← State.retained_eq]
    have hafter := afterBand_real (s := s.cleared) hreal hp hr
    have hpage := retained_page? (b := x.band) (r := r) (s := emit .bandEnd { s.cleared with sending := none }) hp
    refine ⟨fun hmore => ?_, fun hlast ho => ?_⟩
    · rw [endSending_more hafter hpage ht hmore]
      rfl
    · rw [endSending_last hafter hpage ht hlast ho, passed_setPage rfl, State.passed, ← page?_id hp]
      rfl
  · rw [sendingEnd_some (s := s.cleared) hx]
    have hafter := afterBand_filler (s := s.cleared) hfiller
    refine ⟨fun hmore => ?_, fun hlast ho => ?_⟩
    · rw [endSending_more hafter hp ht hmore]
      rfl
    · rw [endSending_last hafter hp ht hlast ho, State.passed, ← page?_id hp]
      rfl

end Sys2Proof.Machine
end

section
/-! PROOF. The head port's lists within their bounds through every step (R147, R150, R161). -/

namespace Sys2Proof.Machine

/-- An offer is made with fewer than 4 pages in the path list (R150), and the page that enters the path list leaves the offer
slot (R147); a CLEAR trims the purge list to its newest 8 ids (R161). -/
theorem Move.keeps_head {lim : Nat} {s t : State} (m : Move lim s t) (h : HeadBounded s) : HeadBounded t := by
  obtain ⟨hpath, hpurge⟩ := h
  cases m
  case offered slot ho hp => exact ⟨hp, hpurge⟩
  case slot o ho => exact ⟨(Nat.add_le_add_left ho _).trans hpath, hpurge⟩
  case enterPath id ho =>
    obtain ⟨slot, hslot⟩ := Option.isSome_iff_exists.1 ho
    rw [hslot] at hpath
    exact ⟨(List.length_append (as := s.path) (bs := [id])).trans_le hpath, hpurge⟩
  case path l hl => exact ⟨(Nat.add_le_add_right hl _).trans hpath, hpurge⟩
  case purge l hl => exact ⟨hpath, hl.elim (fun hle => hle.trans hpurge) id⟩
  case masterReset => exact ⟨Nat.zero_le _, Nat.zero_le _⟩
  all_goals exact ⟨hpath, hpurge⟩

/-- Settles O59: the moves of a step keep the path list, the offer slot and the purge list within their bounds. -/
theorem stepKeepsHead : Obligations.StepKeepsHead := by
  intro s t hs h
  obtain ⟨lim, hl⟩ := exists_frameWithin s.pending
  exact (step_moves s t hl h).keeps (fun _ _ m => m.keeps_head) hs

end Sys2Proof.Machine
end

section
/-! PROOF. What the messages from the press do: START, DEMAND, DONE and FAULT, and a message of unknown type (R149, R152 to R155,
R157 to R159, R162, R182). -/

namespace Sys2Proof.Machine

/-! ## START (R152, R162) -/

section

variable {id : Nat} {s : State}

theorem pressStart_purged (h : id ∈ s.purge) : pressStart id s = s := if_pos (List.contains_iff_mem.2 h)

section

variable {slot : OfferSlot} (hout : id ∉ s.purge)

include hout

theorem pressStart_noOffer (ho : s.offer = none) : pressStart id s = headProtocol 17 id .noOffer s := by
  rw [pressStart, if_neg (mt List.contains_iff_mem.1 hout), ho]

variable (ho : s.offer = some slot)

include ho

theorem pressStart_printing (h : slot.printing = true) : pressStart id s = headProtocol 17 id .noOffer s := by
  rw [pressStart, if_neg (mt List.contains_iff_mem.1 hout), ho]
  exact if_pos h

theorem pressStart_otherPage (h : ¬ slot.printing = true) (hpage : slot.page ≠ id) :
    pressStart id s = headProtocol 17 id .wrongPage s := by
  rw [pressStart, if_neg (mt List.contains_iff_mem.1 hout), ho]
  exact (if_neg h).trans (if_pos hpage)

theorem pressStart_offered (h : ¬ slot.printing = true) (hpage : slot.page = id) : pressStart id s =
    modPage id (fun p => { p with state := .printing })
      { s with offer := some { page := id, printing := true }, cursor := some 0 } := by
  rw [pressStart, if_neg (mt List.contains_iff_mem.1 hout), ho]
  exact (if_neg h).trans ((if_neg (not_not_intro hpage)).trans (by rw [hpage]))

end

end

theorem exec_start {s : State} (h : s.inReset = false) (id : Nat) : exec (.start id) s = .next (follow (pressStart id s.cleared)) :=
  congrArg Host.Outcome.next (whenUp_up h _)

theorem exec_badMessage {s : State} (h : s.inReset = false) (type id : Nat) :
    exec (.badMessage type id) s = .next (follow (headProtocol type id .badMessage s.cleared)) :=
  congrArg Host.Outcome.next (whenUp_up h _)

/-- Settles O30: the purge list, then the offer slot, decide what START does; a message of unknown type is ignored in every
state. -/
theorem Settled.pressStart : Obligations.PressStart := by
  refine ⟨fun id s hup => ?_, fun type id s hup => exec_badMessage hup type id⟩
  rw [exec_start hup]
  split
  case isTrue hpurged => rw [pressStart_purged (s := s.cleared) hpurged]
  case isFalse hout =>
    split
    case h_1 ho => rw [pressStart_noOffer (s := s.cleared) hout ho]
    case h_2 slot ho =>
      split
      case isTrue hprinting => rw [pressStart_printing (s := s.cleared) hout ho hprinting]
      case isFalse hoffered =>
        split
        case isTrue hother => rw [pressStart_otherPage (s := s.cleared) hout ho hoffered hother]
        case isFalse hpage => rw [pressStart_offered (s := s.cleared) hout ho hoffered (not_not.1 hpage)]

/-! ## DEMAND (R153 to R155, R162) -/

section

variable {s : State} {p : Page} {t : TemplateBuffer}

theorem pressDemand_idle (h : s.printingPage = none) :
    pressDemand s = if s.purge = [] then headProtocol 18 0 .notPrinting s else s := by
  simp only [pressDemand, h, List.isEmpty_iff]

theorem pressDemand_busy (hp : s.printingPage = some p) (h : s.sending ≠ none) : pressDemand s = headProtocol 18 0 .busy s := by
  simp only [pressDemand, hp, Option.isSome_iff_ne_none.2 h, if_true]

section

variable {b : Nat} (hp : s.printingPage = some p) (ht : s.templateOf p = some t) (hfree : s.sending = none)
  (hb : s.cursor.getD 0 = b)

include hp ht hfree hb

theorem pressDemand_real {r : BandRecord} (hr : p.band? b = some r) (hc : r.state = .composed) :
    pressDemand s = sendReal p t b r s := by
  simp [pressDemand, hp, hfree, ht, hb, hr, hc]

theorem pressDemand_filler (hr : ∀ r, p.band? b = some r → r.state ≠ .composed) :
    pressDemand s = sendFiller p t b (if (p.band? b).isSome then 1 else 2) s := by
  cases hband : p.band? b with
  | none => simp [pressDemand, hp, hfree, ht, hb, hband]
  | some r => simp [pressDemand, hp, hfree, ht, hb, hband, hr r hband]

end

/-- A real band leaves the spoiled flag as it stands (R154). -/
theorem beginSending_real (p : Page) (t : TemplateBuffer) (b : Nat) (pixels : List Byte) (s : State) :
    beginSending p t b true pixels s =
      { s with
        pages := replaceFirst (fun q => q.id = p.id) { p with sendLog := p.sendLog.set b .real } s.pages
        cursor := some (b + 1)
        sending := some { page := p.id, band := b, real := true }
        out := s.out ++ [.bandBegin p.id b (t.bandLines b) t.width false (decide (b + 1 = t.bandCount)) p.spoiled pixels] } := by
  simp only [beginSending, Bool.not_true, Bool.or_false]
  rfl

/-- A filler spoils the page (R155). -/
theorem beginSending_filler (p : Page) (t : TemplateBuffer) (b : Nat) (pixels : List Byte) (s : State) :
    beginSending p t b false pixels s =
      { s with
        pages := replaceFirst (fun q => q.id = p.id) { p with sendLog := p.sendLog.set b .filler, spoiled := true } s.pages
        cursor := some (b + 1)
        sending := some { page := p.id, band := b, real := false }
        out := s.out ++ [.bandBegin p.id b (t.bandLines b) t.width true (decide (b + 1 = t.bandCount)) true pixels] } := by
  simp only [beginSending, Bool.not_false, Bool.or_true]
  rfl

end

theorem exec_demand {s : State} (h : s.inReset = false) : exec .demand s = .next (follow (pressDemand s.cleared)) :=
  congrArg Host.Outcome.next (whenUp_up h _)

/-- Settles O31: no page in PRINTING, a message that leaves, a COMPOSED record, and another record or none. -/
theorem demand : Obligations.Demand := by
  intro s hup
  rw [exec_demand hup]
  refine ⟨fun hnone => ?_, fun p t hp ht => ⟨fun hbusy => ?_, fun hfree b hb => ⟨fun r hr hc => ?_, fun hr => ?_⟩⟩⟩
  · rw [pressDemand_idle (s := s.cleared) hnone]
    rfl
  · rw [pressDemand_busy (s := s.cleared) hp hbusy]
  · rw [pressDemand_real (s := s.cleared) hp ht hfree hb hr hc, sendReal, beginSending_real]
    rfl
  · rw [pressDemand_filler (s := s.cleared) hp ht hfree hb hr, sendFiller, beginSending_filler]
    rfl

/-! ## DONE (R157, R162) -/

section

variable {id : Nat} {s : State}

theorem pressDone_purged (h : id ∈ s.purge) : pressDone id s = { s with purge := s.purge.filter (· ≠ id) } :=
  if_pos (List.contains_iff_mem.2 h)

section

variable (hout : id ∉ s.purge)

include hout

theorem pressDone_oldest (h : s.path.head? = some id) : pressDone id s =
    releasePage 0 id
      (fun p => notify .sheetAccepted p.tag p.id [.two p.attempt, flagItem [p.spoiled], flagItem [p.short]])
      { s with path := s.path.tail
               headCounters := { s.headCounters with accepted := bump s.headCounters.accepted } } := by
  rw [pressDone, if_neg (mt List.contains_iff_mem.1 hout), if_pos h]
  rfl

theorem pressDone_younger (h : s.path.head? ≠ some id) (hin : id ∈ s.path) :
    pressDone id s = headProtocol 19 id .notOldest s := by
  rw [pressDone, if_neg (mt List.contains_iff_mem.1 hout), if_neg h, if_pos (List.contains_iff_mem.2 hin)]

theorem pressDone_notInPath (h : s.path.head? ≠ some id) (hin : id ∉ s.path) :
    pressDone id s = headProtocol 19 id .notInPath s := by
  rw [pressDone, if_neg (mt List.contains_iff_mem.1 hout), if_neg h, if_neg (mt List.contains_iff_mem.1 hin)]

end

end

theorem exec_done {s : State} (h : s.inReset = false) (id : Nat) : exec (.done id) s = .next (follow (pressDone id s.cleared)) :=
  congrArg Host.Outcome.next (whenUp_up h _)

/-- Settles O32: the purge list, then the front of the path list, then its other ids. -/
theorem done : Obligations.Done := by
  intro id s hup
  rw [exec_done hup]
  split
  case isTrue hpurged => rw [pressDone_purged (s := s.cleared) hpurged]; rfl
  case isFalse hout =>
    split
    case isTrue hfront =>
      rw [pressDone_oldest (s := s.cleared) hout hfront]
      simp only [flagItem_one]
      rfl
    case isFalse hfront =>
      split
      case isTrue hin => rw [pressDone_younger (s := s.cleared) hout hfront hin]
      case isFalse hin => rw [pressDone_notInPath (s := s.cleared) hout hfront hin]

/-! ## FAULT (R158, R159, R162) -/

section

variable {id : Nat} {s : State}

theorem pressFault_purged (h : id ∈ s.purge) : pressFault id s = { s with purge := s.purge.filter (· ≠ id) } :=
  if_pos (List.contains_iff_mem.2 h)

section

variable {p : Page} (hout : id ∉ s.purge)

include hout

theorem pressFault_unknownPage (hp : s.page? id = none) : pressFault id s = headProtocol 20 id .notInPath s := by
  rw [pressFault, if_neg (mt List.contains_iff_mem.1 hout), hp]

variable (hp : s.page? id = some p)

include hp

/-- The returned set is the page and the younger pages at the press, oldest first (R158, R159). -/
theorem pressFault_printed (h : p.state = .inPath ∨ p.state = .printing) : pressFault id s =
    let r := returnPages (((s.pages.dropWhile (·.id ≠ id)).filter (·.state.atPress)).map (·.id))
      { s with headCounters := { s.headCounters with faults := bump s.headCounters.faults } }
    notify .sheetFaulted p.tag id [.two r.2.1, .two r.2.2] r.1 := by
  rw [pressFault, if_neg (mt List.contains_iff_mem.1 hout), hp]
  exact if_pos (by simpa using h)

theorem pressFault_unprinted (h : ¬ (p.state = .inPath ∨ p.state = .printing)) :
    pressFault id s = headProtocol 20 id .notInPath s := by
  rw [pressFault, if_neg (mt List.contains_iff_mem.1 hout), hp]
  exact if_neg (by simpa using h)

end

end

theorem exec_fault {s : State} (h : s.inReset = false) (id : Nat) :
    exec (.fault id) s = .next (follow (pressFault id s.cleared)) :=
  congrArg Host.Outcome.next (whenUp_up h _)

/-- Settles O33: the purge list, then the page's state. -/
theorem fault : Obligations.Fault := by
  intro id s hup
  rw [exec_fault hup]
  split
  case isTrue hpurged => rw [pressFault_purged (s := s.cleared) hpurged]; rfl
  case isFalse hout =>
    split
    case h_1 hp => rw [pressFault_unknownPage (s := s.cleared) hout hp]
    case h_2 p hp =>
      split
      case isTrue hprinted => rw [pressFault_printed (s := s.cleared) hout hp hprinted]; rfl
      case isFalse hunprinted => rw [pressFault_unprinted (s := s.cleared) hout hp hunprinted]

end Sys2Proof.Machine
end

section
/-! PROOF. QUERY, FLAGS CLEAR, NOTICE FLUSH and the end of a return record's transfer (R164, R168, R170 to R174). -/

namespace Sys2Proof.Machine

/-! ## What storing a reply and the release rule leave (R164, R168) -/

theorem storeReply_sameRest (r : Reply) (s : State) : SameRest s (storeReply r s) :=
  ⟨storeReply_sameLink .., storeReply_freeBlocks .., storeReply_storeLow .., storeReply_lowMark .., storeReply_pages ..,
    storeReply_compositor .., storeReply_offer ..⟩

theorem releaseRule_sameRest (s : State) : SameRest s (releaseRule s) :=
  ⟨releaseRule_sameLink .., releaseRule_freeBlocks .., releaseRule_storeLow .., releaseRule_lowMark .., releaseRule_pages ..,
    releaseRule_compositor .., releaseRule_offer ..⟩

/-- A taken record of a kind that breaks no portrait is counted, and nothing beside its effect comes about. -/
theorem CarriedRecord.takenPlain {ch : Chan} {s u : State} {b : List Byte} {kind : RecordKind} {form : RecordForm}
    (r : CarriedRecord b kind form) (hq : Quiet ch s) (hk : kind.plain = true)
    (hj : judgeOwner ch kind b (s.holding ch b) = .taken (u.holding ch b)) (hu : SameRest s u) :
    deliver ch b s = (u.counted ch).rested := by
  obtain ⟨⟨hchans, hwaiting⟩, hfree, hlow, hmark, hpages, hcompositor, hoffer⟩ := hu
  rw [owner_taken hq r.whole r.checked hk hj hchans hwaiting,
    counted_rested _ hq hfree hlow hmark hpages hcompositor hoffer]

/-! ## QUERY (R171) -/

theorem queryKind_code {kind : ReplyKind} (h : kind ≠ .set) : queryKind kind.code = some kind := by
  cases kind
  case set => exact absurd rfl h
  all_goals rfl

theorem badOperand_channel (n : Nat) : badOperand .channel n = decide (3 < n) := by simp [badOperand]

theorem badOperand_template (n : Nat) : badOperand .template n = decide (7 < n) := by simp [badOperand]

/-- The verdict on a QUERY where no record waits: R171's steps in order. -/
theorem judgeQuery_of_fields {ch : Chan} {b : List Byte} {s : State} {kind : ReplyKind} {n : Nat} (hset : kind ≠ .set)
    (hkind : field b 8 1 = kind.code) (hn : field b 12 4 = n) (hw : s.waiting = []) :
    judgeQuery ch b s =
      if badOperand kind n then .refused .badField []
      else if 64 ≤ s.returnQueue.length then .deferred .returnSpace
      else .taken (storeReply (queryReply s (recTag b) n kind) s) := by
  subst hn
  simp only [judgeQuery, hkind, queryKind_code hset, olderWaiter_none hw, Bool.or_false, decide_eq_true_eq,
    Config.returnEntries]

section

variable {ch : Chan} {s : State} {b : List Byte} {tag n : Nat} {kind : ReplyKind}
  (r : CarriedRecord b .query ⟨65, tag, [(8, 1, kind.code), (12, 4, n)], 16, []⟩) (hq : Quiet ch s) (hset : kind ≠ .set)

include r hq hset

theorem CarriedRecord.queryVerdict : judgeOwner ch .query b (s.holding ch b) =
    if badOperand kind n then .refused .badField []
    else if 64 ≤ s.returnQueue.length then .deferred .returnSpace
    else .taken ((storeReply (queryReply (s.holding ch b) tag n kind) s).holding ch b) := by
  have hkind : field b 8 1 = kind.code := r.reads.fields (8, 1, kind.code) (by simp)
  have hn : field b 12 4 = n := r.reads.fields (12, 4, n) (by simp)
  have htag : recTag b = tag := r.reads.tag
  have hstore : ∀ x, storeReply x (s.holding ch b) = (storeReply x s).holding ch b := fun x => storeReply_modChan x ch _ s
  show judgeQuery ch b (s.holding ch b) = _
  rw [judgeQuery_of_fields (s := s.holding ch b) hset hkind hn hq.noWaiters, htag, hstore]
  rfl

theorem CarriedRecord.query_refused (hbad : badOperand kind n = true) :
    deliver ch b s = (s.refusedOn ch tag 0 65 .badField []).rested := by
  have hsub : recSubject b = 0 := by rw [recSubject, r.isKind]
  have hj := (r.queryVerdict hq hset).trans (if_pos hbad)
  rw [owner_refused hq r.whole r.checked rfl r.isKind hj, r.reads.tag, r.reads.kind, hsub]

/-- A QUERY of a good operand waits where no entry is free, else its reply is stored (R164, R171). -/
theorem CarriedRecord.query_answered (hgood : badOperand kind n = false) : deliver ch b s =
    if 64 ≤ s.returnQueue.length then s.deferredOn ch b .returnSpace
    else ((storeReply (queryReply (s.holding ch b) tag n kind) s).counted ch).rested := by
  have hj := (r.queryVerdict hq hset).trans (if_neg (Bool.eq_false_iff.1 hgood))
  by_cases hfull : 64 ≤ s.returnQueue.length
  · rw [if_pos hfull] at hj ⊢
    exact owner_deferred hq r.whole r.checked rfl hj
  · rw [if_neg hfull] at hj ⊢
    exact r.takenPlain hq rfl hj (storeReply_sameRest ..)

end

/-- Settles O26: the operand decides the refusal, the return queue the rest. -/
theorem queriesTaken : Obligations.QueriesTaken := by
  intro ch tag operand s hq ht ho answer refused
  have hq' := quiet_cleared hq
  have wf : (fitsBytes 4 tag && fitsBytes 4 operand) = true := by
    simp only [fitsBytes, Bool.and_eq_true, decide_eq_true_eq]
    exact ⟨ht, ho⟩
  have record : ∀ (c : Instr) (kind : ReplyKind) (n : Nat), c.wf = true →
      c.wireRecord = some (ch, queryRecord tag kind.code n) → Sys2Proof.Laws.carriedKind c = some .query →
      recordForm c = some ⟨65, tag, [(8, 1, kind.code), (12, 4, n)], 16, []⟩ → kind ≠ .set →
      (badOperand kind n = true → exec c s = .next refused) ∧
        (badOperand kind n = false → exec c s = .next (answer kind n)) := by
    intro c kind n hw hb hk hf hset
    have r := carriedRecord hw hb hk hf
    rw [exec_wireRecord hq.up hb]
    exact ⟨fun hbad => congrArg _ (r.query_refused hq' hset hbad), fun hgood => congrArg _ (r.query_answered hq' hset hgood)⟩
  refine ⟨?_, ?_, ?_, ?_, ?_, ?_⟩
  · have hw : (Instr.queryStatus ch tag).wf = true := decide_eq_true ht
    exact (record (.queryStatus ch tag) .status 0 hw rfl rfl rfl nofun).2 rfl
  · obtain ⟨hrefused, hanswered⟩ := record (.queryChannel ch tag operand) .channel operand wf rfl rfl rfl nofun
    split
    case isTrue h => exact hrefused (by rw [badOperand_channel]; exact decide_eq_true h)
    case isFalse h => exact hanswered (by rw [badOperand_channel]; exact decide_eq_false h)
  · exact (record (.queryEntry ch tag operand) .entry operand wf rfl rfl rfl nofun).2 rfl
  · exact (record (.queryPage ch tag operand) .page operand wf rfl rfl rfl nofun).2 rfl
  · exact (record (.queryJob ch tag operand) .job operand wf rfl rfl rfl nofun).2 rfl
  · obtain ⟨hrefused, hanswered⟩ := record (.queryTemplate ch tag operand) .template operand wf rfl rfl rfl nofun
    split
    case isTrue h => exact hrefused (by rw [badOperand_template]; exact decide_eq_true h)
    case isFalse h => exact hanswered (by rw [badOperand_template]; exact decide_eq_false h)

/-! ## What a selection clears (R174, 11.2) -/

theorem bit_two_pow (i j : Nat) : bit (2 ^ i) j = decide (i = j) := by
  rw [bit, ← Nat.testBit_eq_decide_div_mod_eq, Nat.testBit_two_pow]

/-- A channel with the sticky flags cleared that a selection names on it: overflow in bit n, framing in bit 4 + n. -/
def Channel.flagsCleared (selection : Nat) (ch : Chan) (c : Channel) : Channel :=
  { c with overflow := c.overflow && !bit selection ch, framing := c.framing && !bit selection (4 + ch) }

/-- The state with the sticky flags cleared that a selection names. -/
def State.flagsCleared (selection : Nat) (s : State) : State :=
  { s with
    chans := Vector.ofFn fun ch => s.chans[ch].flagsCleared selection ch
    lowSeen := s.lowSeen && !bit selection 8 }

theorem flagsCleared_chan (selection : Nat) (s : State) (c : Chan) :
    (s.flagsCleared selection).chans[c] = s.chans[c].flagsCleared selection c := by
  simp [State.flagsCleared]

/-- Two states with the same channels and else the same fields. -/
theorem state_eq_of_chans {s t : State} (hc : ∀ c : Chan, s.chans[c] = t.chans[c])
    (hrest : { s with chans := t.chans } = t) : s = t := by
  have h : s.chans = t.chans := Vector.ext fun i hi => hc ⟨i, hi⟩
  rw [← hrest, ← h]

/-- Each channel of a list is cleared once, by itself. -/
theorem foldl_clearChannelFlags_chan (selection : Nat) {l : List Chan} (hl : l.Nodup) (s : State) (c : Chan) :
    (l.foldl (clearChannelFlags selection) s).chans[c] =
      if c ∈ l then s.chans[c].flagsCleared selection c else s.chans[c] := by
  induction l generalizing s with
  | nil => rfl
  | cons ch rest ih =>
    obtain ⟨hnew, hrest⟩ := List.nodup_cons.1 hl
    rw [List.foldl_cons, ih hrest]
    by_cases hc : c = ch
    · subst hc
      rw [if_neg hnew, if_pos List.mem_cons_self, clearChannelFlags, modChan_self]
      rfl
    · have hstands : (clearChannelFlags selection s ch).chans[c] = s.chans[c] := modChan_other _ s hc
      simp only [hstands, List.mem_cons, hc, false_or]

theorem foldl_clearChannelFlags (selection : Nat) (s : State) :
    (List.finRange 4).foldl (clearChannelFlags selection) s =
      { s with chans := Vector.ofFn fun ch => s.chans[ch].flagsCleared selection ch } := by
  refine state_eq_of_chans (fun c => ?_) rfl
  rw [foldl_clearChannelFlags_chan selection (List.nodup_finRange 4), if_pos (List.mem_finRange c)]
  exact (flagsCleared_chan selection s c).symm

theorem judgeFlagsClear_of_field {b : List Byte} {selection : Nat} (hf : field b 8 2 = selection) (h : selection < 512)
    (s : State) : judgeFlagsClear b s = .taken (s.flagsCleared selection) := by
  subst hf
  simp only [judgeFlagsClear, if_neg (Nat.not_le.2 h), foldl_clearChannelFlags]
  rfl

/-- A flag is cleared whatever the buffers hold. -/
theorem flagsCleared_holding (selection : Nat) (ch : Chan) (b : List Byte) (s : State) :
    (s.holding ch b).flagsCleared selection = (s.flagsCleared selection).holding ch b := by
  refine state_eq_of_chans (fun c => ?_) rfl
  by_cases hc : c = ch
  · subst hc
    rw [flagsCleared_chan, holding_self, holding_self, flagsCleared_chan]
    rfl
  · rw [flagsCleared_chan, holding_other _ _ hc, holding_other _ _ hc, flagsCleared_chan]

/-- The selection of one channel flag clears a flag of that channel alone. -/
theorem flagsCleared_modChan {selection : Nat} {target : Chan} {f : Channel → Channel} {s : State}
    (hself : s.chans[target].flagsCleared selection target = f s.chans[target])
    (hother : ∀ c, c ≠ target → s.chans[c].flagsCleared selection c = s.chans[c]) (hlow : bit selection 8 = false) :
    s.flagsCleared selection = modChan target f s := by
  refine state_eq_of_chans (fun c => ?_) ?_
  · rw [flagsCleared_chan]
    by_cases hc : c = target
    · subst hc
      rw [modChan_self, hself]
    · rw [modChan_other f s hc, hother c hc]
  · rw [State.flagsCleared, hlow, Bool.not_false, Bool.and_true]
    rfl

theorem flagsCleared_overflow (target : Chan) (s : State) :
    s.flagsCleared (2 ^ target.val) = modChan target (fun c => { c with overflow := false }) s := by
  have hframing : ∀ c : Chan, target.val ≠ 4 + c.val := fun c => by omega
  apply flagsCleared_modChan
  · simp [Channel.flagsCleared, bit_two_pow]
  · intro c hc
    have hne : target.val ≠ c.val := fun e => hc (Fin.ext e.symm)
    simp [Channel.flagsCleared, bit_two_pow, hframing, hne]
  · rw [bit_two_pow]
    exact decide_eq_false (by omega)

theorem flagsCleared_framing (target : Chan) (s : State) :
    s.flagsCleared (2 ^ (4 + target.val)) = modChan target (fun c => { c with framing := false }) s := by
  have hoverflow : ∀ c : Chan, 4 + target.val ≠ c.val := fun c => by omega
  apply flagsCleared_modChan
  · simp [Channel.flagsCleared, bit_two_pow]
  · intro c hc
    have hne : target.val ≠ c.val := fun e => hc (Fin.ext e.symm)
    simp [Channel.flagsCleared, bit_two_pow, hoverflow, hne]
  · rw [bit_two_pow]
    exact decide_eq_false (by omega)

theorem flagsCleared_lowSeen (s : State) : s.flagsCleared (2 ^ 8) = { s with lowSeen := false } := by
  refine state_eq_of_chans (fun c => ?_) ?_
  · have hoverflow : 8 ≠ c.val := by omega
    have hframing : 8 ≠ 4 + c.val := by omega
    rw [flagsCleared_chan, Channel.flagsCleared, bit_two_pow, bit_two_pow, decide_eq_false hoverflow, decide_eq_false hframing,
      Bool.not_false, Bool.and_true, Bool.and_true]
  · rw [State.flagsCleared, bit_two_pow, decide_eq_true rfl, Bool.not_true, Bool.and_false]

/-- A FLAGS CLEAR on a quiet channel clears what its selection names, and is counted (R174). -/
theorem CarriedRecord.flagsClear {ch : Chan} {s : State} {b : List Byte} {tag selection : Nat}
    (r : CarriedRecord b .flagsClear ⟨66, tag, [(8, 2, selection)], 12, []⟩) (hq : Quiet ch s) (h : selection < 512) :
    deliver ch b s = (s.flagsCleared selection).counted ch := by
  have hf : field b 8 2 = selection := r.reads.fields (8, 2, selection) (by simp)
  have hj : judgeOwner ch .flagsClear b (s.holding ch b) = .taken ((s.flagsCleared selection).holding ch b) :=
    (judgeFlagsClear_of_field hf h _).trans (congrArg _ (flagsCleared_holding ..))
  have hjudged : StoreJudged ((s.flagsCleared selection).counted ch) := hq.judged
  have hv : Vacant ch (s.flagsCleared selection) := by
    constructor <;> rw [flagsCleared_chan]
    · exact hq.empty
    · exact hq.ready
    · exact hq.mark
  have hpresents : ∀ c, (s.flagsCleared selection).presents c = false := fun c => by
    rw [← hq.still c]
    exact presents_same (by rw [flagsCleared_chan]; rfl) (by rw [flagsCleared_chan]; rfl) rfl
  rw [deliver_takenFrom hq r.whole r.checked rfl hj (Nat.le_refl _) hv hq.noWaiters (fun c _ => hpresents c) hq.steady,
    judgeStore_judged _ hjudged]
  exact rested_self hq.noWake

/-! ## NOTICE FLUSH (R170) -/

/-- The state with every held entry flushed. -/
def State.allFlushed (s : State) : State :=
  { s with returnQueue := s.returnQueue.map fun h => { h with flushed := true } }

theorem allFlushed_sameRest (s : State) : SameRest s s.allFlushed := ⟨⟨rfl, rfl⟩, rfl, rfl, rfl, rfl, rfl, rfl⟩

theorem judgeFlush_holding (ch : Chan) (b : List Byte) (s : State) :
    judgeFlush (s.holding ch b) = .taken ((releaseRule s.allFlushed).holding ch b) :=
  congrArg Verdict.taken (releaseRule_modChan ch (fun c => { c with buffer := b }) s.allFlushed)

/-- A NOTICE FLUSH on a quiet channel flushes the entries, applies the release rule and is counted (R170). -/
theorem CarriedRecord.noticeFlush {ch : Chan} {s : State} {b : List Byte} {form : RecordForm}
    (r : CarriedRecord b .noticeFlush form) (hq : Quiet ch s) :
    deliver ch b s = ((releaseRule s.allFlushed).counted ch).rested :=
  r.takenPlain hq rfl (judgeFlush_holding ch b s) ((allFlushed_sameRest s).trans (releaseRule_sameRest _))

/-- Settles O27: one selection bit for each sticky flag, and the flush of every held entry. -/
theorem flagsAndFlush : Obligations.FlagsAndFlush := by
  intro ch tag s hq ht
  have hq' := quiet_cleared hq
  have clears : ∀ (c : Instr) (i : Nat), i < 9 → c.wf = true → c.wireRecord = some (ch, flagsClearRecord tag (2 ^ i)) →
      Sys2Proof.Laws.carriedKind c = some .flagsClear → recordForm c = some ⟨66, tag, [(8, 2, 2 ^ i)], 12, []⟩ →
      exec c s = .next ((s.cleared.flagsCleared (2 ^ i)).counted ch) := by
    intro c i hi hw hb hk hf
    have hsel : 2 ^ i < 512 := Nat.pow_lt_pow_right (n := 9) (by decide) hi
    rw [exec_wireRecord hq.up hb, (carriedRecord hw hb hk hf).flagsClear hq' hsel]
  have wf : fitsBytes 4 tag = true := decide_eq_true ht
  refine ⟨fun target => ?_, fun target => ?_, ?_, ?_⟩
  · rw [clears (.flagsClearOverflow ch tag target) target.val (by omega) wf rfl rfl rfl, flagsCleared_overflow]
  · rw [clears (.flagsClearFraming ch tag target) (4 + target.val) (by omega) wf rfl rfl rfl, flagsCleared_framing]
  · rw [clears (.flagsClearStoreLowSeen ch tag) 8 (by decide) wf rfl rfl rfl, flagsCleared_lowSeen]
  · have r := carriedRecord (c := .noticeFlush ch tag) wf rfl rfl rfl
    rw [exec_wireRecord (c := .noticeFlush ch tag) hq.up rfl, r.noticeFlush hq']
    rfl

/-! ## The end of a return record's transfer (R168) -/

theorem exec_returnTransferEnd {s : State} (h : s.inReset = false) :
    exec .returnTransferEnd s = .next (follow (transferEnd s.cleared)) :=
  congrArg Host.Outcome.next (whenUp_up h _)

theorem transferEnd_idle {s : State} (h : s.returnChannel = none) : transferEnd s = s := by
  rw [transferEnd, h]

theorem transferEnd_busy {s : State} {t : Transfer} (h : s.returnChannel = some t) :
    transferEnd s = releaseRule { s with returnChannel := none, out := s.out ++ [.returnEnd] } := by
  rw [transferEnd, h]
  rfl

/-- Settles O37: no transfer in progress, or one that ends. -/
theorem Settled.transferEnd : Obligations.TransferEnd := by
  intro s hup
  rw [exec_returnTransferEnd hup]
  refine ⟨fun hidle => ?_, fun t hbusy => ?_⟩
  · rw [transferEnd_idle (s := s.cleared) hidle]
  · rw [transferEnd_busy (s := s.cleared) hbusy]
    rfl

end Sys2Proof.Machine
end
